-- ==== Sys2Proof/Word.lean ====
section
/-! DEFINITION. The word types of the QS-8: bytes, 32-bit words, channel masks and the
index ranges of its tables (spec/00_scope.md, Conventions). -/

namespace Sys2Proof

/-- One byte, the unit in which records and the setup block are laid out (R178). -/
abbrev Byte := BitVec 8

/-- A 32-bit word of the register window or of a record (R178, R182). -/
abbrev Word := BitVec 32

/-- A channel mask or an AUX line mask: bit n names channel n, or AUX line n (R178). -/
abbrev Mask := BitVec 8

/-- A channel number, 0 to 7. -/
abbrev Chan := Fin 8

/-- A rendezvous slot number, 0 to 7 (R72). -/
abbrev SlotIx := Fin 8

/-- A watch number, 0 to 15 (R93). -/
abbrev WatchIx := Fin 16

/-- A profile number, 0 to 15 (R27). -/
abbrev ProfIx := Fin 16

/-- A capture input number, 0 to 3 (R93). -/
abbrev CapIx := Fin 4

/-- Sixty-four bytes in host memory, lowest offset first: a request record (R179) or the setup block (R181). -/
abbrev Block := Vector Byte 64

end Sys2Proof
end

