-- ==== Sys2Proof/Syntax.lean ====
section
/-! DEFINITION. The commands the QS-8 takes: one constructor per row of spec/opcode_table.json, with the operands
the row's rule gives it. -/

namespace Sys2Proof

/-- One of the two request rings (R112). -/
inductive Ring where
  | main
  | ctrl
  deriving DecidableEq, Repr

/-- One of a channel's two limit inputs (R66). -/
inductive LimitInput where
  | limp
  | limn
  deriving DecidableEq, Repr

/-- Which DMA operation has ended: the one now under way, or one that a disable, a fault or a reset has dropped
and whose data or failure is discarded (R119, R152, R154, R168). -/
inductive DmaEnd where
  | live
  | dropped
  deriving DecidableEq, Repr

/-- The commands. The first eighteen are takes by the intake arbiter of the record HOLDING in the named ring's head
buffer (R123); their fields are read from that record (R179). The next twelve are writes of the register window, each
with the whole word written (R182). The rest are events: at a pin, at a channel's own timing, at a DMA operation of the
link, and the steps that the part begins by itself. -/
inductive Instr where
  -- takes of main-ring kinds
  | move (ring : Ring)
  | dwell (ring : Ring)
  | setPosition (ring : Ring)
  | mark (ring : Ring)
  | rendezvous (ring : Ring)
  | setProfile (ring : Ring)
  | fence (ring : Ring)
  | nop (ring : Ring)
  -- takes of control-ring kinds
  | halt (ring : Ring)
  | resume (ring : Ring)
  | overrideRate (ring : Ring)
  | cancelRendezvous (ring : Ring)
  | setWatch (ring : Ring)
  | clearWatch (ring : Ring)
  | setChannel (ring : Ring)
  | query (ring : Ring)
  | clearEstop (ring : Ring)
  | badKindRecord (ring : Ring)
  -- writes of the register window
  | enableSet (value : Word)
  | enableClear (value : Word)
  | softReset (value : Word)
  | intEnable (value : Word)
  | setupLo (value : Word)
  | setupHi (value : Word)
  | mainPost (value : Word)
  | ctrlPost (value : Word)
  | cplRetire (value : Word)
  | intCauseClear (value : Word)
  | indexErrorClear (value : Word)
  | ignoredRegisterWrite (offset : BitVec 6) (byteEnables : BitVec 4) (value : Word)
  -- the other resets
  | pinResetAssert
  | pinResetRelease
  | conventionalReset
  | functionLevelReset
  -- qualified changes at the input pins
  | estopAssertion
  | estopNegation
  | limitQualifiedChange (channel : Chan) (input : LimitInput) (active : Bool)
  | qualifiedEdge (input : CapIx) (rise : Bool)
  | xsyncQualified
  -- instants of a channel's own timing, and the other timers
  | stepEmission (channel : Chan)
  | settleEnd (channel : Chan)
  | pulseEnd (channel : Chan)
  | segmentEnd (channel : Chan)
  | stopRest (channel : Chan)
  | dwellExpiry (channel : Chan)
  | rendezvousExpiry (slot : SlotIx)
  | coalescingDelayExpiry
  -- ends of DMA operations
  | fetchDone (ring : Ring) (read : DmaEnd) (data : Block)
  | fetchFault (ring : Ring) (read : DmaEnd)
  | completionWriteDone (write : DmaEnd)
  | completionWriteFault (write : DmaEnd)
  | setupReadDone (read : DmaEnd) (block : Block)
  | setupReadFail (read : DmaEnd)
  -- steps the part begins by itself
  | fetchBegin (ring : Ring)
  | completionWriteBegin
  | drainComplete
  deriving DecidableEq, Repr

/-- The offset, byte enables and value of the register-window write that a command is; none for a command that is
no such write (R182). -/
def Instr.windowWrite : Instr → Option (BitVec 6 × BitVec 4 × Word)
  | .enableSet v | .enableClear v | .softReset v | .intEnable v => some (0, 15, v)
  | .indexErrorClear v => some (4, 15, v)
  | .setupLo v => some (8, 15, v)
  | .setupHi v => some (12, 15, v)
  | .mainPost v => some (16, 15, v)
  | .ctrlPost v => some (24, 15, v)
  | .cplRetire v => some (36, 15, v)
  | .intCauseClear v => some (40, 15, v)
  | .ignoredRegisterWrite off be v => some (off, be, v)
  | .move _ | .dwell _ | .setPosition _ | .mark _ | .rendezvous _ | .setProfile _ | .fence _ | .nop _
  | .halt _ | .resume _ | .overrideRate _ | .cancelRendezvous _ | .setWatch _ | .clearWatch _ | .setChannel _
  | .query _ | .clearEstop _ | .badKindRecord _
  | .pinResetAssert | .pinResetRelease | .conventionalReset | .functionLevelReset
  | .estopAssertion | .estopNegation | .limitQualifiedChange _ _ _ | .qualifiedEdge _ _ | .xsyncQualified
  | .stepEmission _ | .settleEnd _ | .pulseEnd _ | .segmentEnd _ | .stopRest _ | .dwellExpiry _
  | .rendezvousExpiry _ | .coalescingDelayExpiry
  | .fetchDone _ _ _ | .fetchFault _ _ | .completionWriteDone _ | .completionWriteFault _
  | .setupReadDone _ _ | .setupReadFail _
  | .fetchBegin _ | .completionWriteBegin | .drainComplete => none

end Sys2Proof
end

