-- ==== Sys2Proof/Decode.lean ====
section
/-! DEFINITION. The decoder of the opcode table's words. The QS-8 is a block: no row of spec/opcode_table.json gives
any bits, so no word spells a command. -/

namespace Sys2Proof

/-- The command a word spells by the table's bits: none, since every row's "fields" is empty and no row has
"fixed" bits. -/
def decodeTableWord (_nbits _w : Nat) : Option Instr := none

end Sys2Proof
end

