-- ==== Sys2Proof/Config.lean ====
section
/-! DEFINITION. What the part fixes once for all (the figures of the data sheet), and the two free
values of the model: what the outside world puts on the inputs at each cycle, and the order in which
events that fall due at one instant are taken. -/

namespace Sys2Proof

/-- The 40 MHz rate reference, in cycles per second (R31). -/
def Config.referenceHz : Nat := 40000000

/-- Reference cycles in one microsecond (R173). -/
def Config.cyclesPerUs : Nat := 40

/-- Entries a segment queue holds at most, the head included (R1). -/
def Config.queueDepth : Nat := 8

/-- Credits in the pool (R125). -/
def Config.creditTotal : Nat := 64

/-- Credits main-ring requests may hold at most (R125). -/
def Config.creditMain : Nat := 56

/-- Notices the posting queue holds at most (R139). -/
def Config.noticeLimit : Nat := 16

/-- The highest rate, in steps per second (R27). -/
def Config.rateMax : Nat := 400000

/-- The highest acceleration or deceleration, in steps per second per second (R27). -/
def Config.accelMax : Nat := 16777215

/-- The qualification time of the ESTOP# pin, in microseconds (R163). -/
def Config.estopFilterUs : Nat := 4

/-- The qualification time of the RST# pin, in microseconds (R172). -/
def Config.rstFilterUs : Nat := 1

/-- The time XSYNC must read high for a SYNCING slot to be released, in microseconds (R89). -/
def Config.xsyncFilterUs : Nat := 1

/-- The level of an unconnected LIMP, LIMN, CAP or RST# pin, fixed by its pull-up (R175). -/
def Config.pullUp : Bool := true

/-- The level of an unconnected ESTOP# pin, fixed by its pull-down (R175). -/
def Config.pullDown : Bool := false

/-- What the outside world gives the part at one sample (R147, R175, R177). For a pin, `some true` is driven high, `some
false` driven low, and `none` unconnected. `xsyncOthers` is the level the XSYNC wire has when this part's own driver is
off; no resistor of the part fixes it. `msiEnabled` is the setting of the configuration space at that instant. -/
structure Inputs where
  limp : Vector (Option Bool) 8
  limn : Vector (Option Bool) 8
  cap : Vector (Option Bool) 4
  estopN : Option Bool
  rstN : Option Bool
  xsyncOthers : Bool
  msiEnabled : Bool
  deriving DecidableEq, Repr, Inhabited

/-- The level read on a pin: the one driven, or, where the pin is unconnected, the one its internal resistor fixes
(R175). -/
def pinLevel (resistor : Bool) (driven : Option Bool) : Bool := driven.getD resistor

/-- FREE VALUE (log entry 3): what the outside world gives the part at reference cycle n. The spec gives no level, and a
level shorter than one cycle may be seen or missed (R175). -/
opaque Config.inputs : Nat → Inputs

/-- FREE VALUE (log entry 4): which of the events due at one instant is taken first, for the n-th such choice.
The spec leaves that order open (00_scope.md, Events; R46, R58, R69, R91, R107, R129, R160, R167). -/
opaque Config.eventChoice : Nat → Nat

end Sys2Proof
end

