-- ==== Sys2Proof/Machine/State.lean ====
section
/-! DEFINITION. Everything the spec gives the QS-8 to hold, as plain data, and its values after reset. Instants are
counts of 25 ns reference cycles on the model's own time `State.now` (log entry 1). Rates are whole steps per second;
squares of rates are exact (R29, R30). -/

namespace Sys2Proof.Machine

/-- A step never faults: every command of the block has an effect or none in every state (log entry 19). No
constructor, so no meaning can raise one. -/
inductive Fault where
  deriving DecidableEq, Repr

/-- Why a step gives no next state. -/
inductive Refusal where
  /-- Raised by an arm of exec whose command has no meaning yet; no arm does. Safe: the machine stops. -/
  | notModelled (mnemonic : String)
  deriving DecidableEq, Repr

/-! ### Channel configuration and queue entries -/

/-- Which level of LIMP and LIMN is active (R52). -/
inductive LimitPolarity where
  | activeLow
  | activeHigh
  deriving DecidableEq, Repr

/-- Which DIR level stands for the positive direction (R52). -/
inductive DirPolarity where
  | posHigh
  | posLow
  deriving DecidableEq, Repr

/-- The channel configuration record (R52). Times in microseconds, rates in steps per second. -/
structure ChanConfig where
  enable : Bool
  pulseWidth : Nat
  dirSettle : Nat
  maxRate : Nat
  softMin : Int
  softMax : Int
  limitFilter : Nat
  limitPolarity : LimitPolarity
  limpEnable : Bool
  limnEnable : Bool
  dirPolarity : DirPolarity
  deriving DecidableEq, Repr

/-- The configuration record after any reset (R52, last column). -/
def ChanConfig.reset : ChanConfig where
  enable := false
  pulseWidth := 5
  dirSettle := 5
  maxRate := 100000
  softMin := -2147483648
  softMax := 2147483647
  limitFilter := 0
  limitPolarity := .activeLow
  limpEnable := false
  limnEnable := false
  dirPolarity := .posHigh

/-- The four values of a DEFINED profile, and of a snapshot (R3, R27). -/
structure Profile where
  vs : Nat
  vc : Nat
  a : Nat
  b : Nat
  deriving DecidableEq, Repr

/-- How a MOVE gives its end (R2). -/
inductive MoveMode where
  | relative
  | absolute
  deriving DecidableEq, Repr

/-- A MOVE entry (R2). `amount` is the signed distance (RELATIVE) or target (ABSOLUTE). `exitRate` is Ve, present
exactly when CHAIN is set. -/
structure MoveEntry where
  tag : Word
  mode : MoveMode
  amount : Word
  exitRate : Option Nat
  profile : Profile
  overridden : Bool
  deriving DecidableEq, Repr

/-- A segment queue entry (R2). -/
inductive Entry where
  | move (m : MoveEntry)
  | dwell (tag : Word) (duration : Nat)
  | setPosition (tag : Word) (value : Word)
  | mark (tag : Word) (set clear : Mask)
  | marker (slot : SlotIx)
  deriving DecidableEq, Repr

/-- The end position, step count and direction a MOVE resolves to (R12). The end position is formed without wrap. -/
structure Resolved where
  endPos : Int
  steps : Nat
  positive : Bool
  deriving DecidableEq, Repr

/-- The binding record of the head (R20). A BOUND record holds Vt, the bound minimum, the successor's place in the
queue (the head has place 0) and the end position and direction it resolves to (R23). -/
inductive Binding where
  | notChained
  | pending
  | bound (vt minimum : Nat) (place : Nat) (successor : Resolved)
  | unbound
  | closed
  deriving DecidableEq, Repr

/-- The channel states (R51). -/
inductive ChanState where
  | disabled
  | idle
  | running
  | dwelling
  | waiting
  | stopping
  | held
  deriving DecidableEq, Repr

/-- The phases of a running MOVE (R29). -/
inductive Phase where
  | none
  | settle
  | rampUp
  | cruise
  | rampDown
  | final
  deriving DecidableEq, Repr

/-- The PGN's stop mode (R29), which is also the mode of a halt order (R53). -/
inductive StopMode where
  | none
  | decel
  | abrupt
  deriving DecidableEq, Repr

/-- A scheduled step: the instant it is due and the rate squared chosen for it (R29). -/
structure Sched where
  due : Nat
  rateSq : Nat
  deriving DecidableEq, Repr

/-- The statuses of completions (R183). -/
inductive Status where
  | ok
  | badKind
  | badField
  | wrongRing
  | channelOff
  | channelHeld
  | cancelled
  | halted
  | limit
  | range
  | expired
  | memberLost
  | aborted
  | tooLate
  | notRunning
  | busy
  | estopLatched
  | inputActive
  | notFound
  deriving DecidableEq, Repr

/-- The flags of a completion (R180). -/
structure Flags where
  unbound : Bool
  short : Bool
  overridden : Bool
  watchHalt : Bool
  deriving DecidableEq, Repr

/-- No flag set. -/
def Flags.clear : Flags where
  unbound := false
  short := false
  overridden := false
  watchHalt := false

/-- A head MOVE's completion kept back until its pulse ends (R56): all of it but the position and the timestamp, which
are those of that instant. -/
structure Kept where
  tag : Word
  status : Status
  flags : Flags
  steps : Word
  rate : Word
  deriving DecidableEq, Repr

/-- An input qualifier (R66, R108, R163, R172): the pin level last sampled (true is high), the instant at which it last
changed, and the qualified state. `before` is some instant where that last change turned back one that was under
qualification: the instant at which the one turned back had come. -/
structure Qual where
  level : Bool
  since : Nat
  before : Option Nat
  qualified : Bool
  deriving DecidableEq, Repr

/-- The profile generator's state (R29). `pulseEnd` is the STEP level and the end of its pulse: STEP is high exactly
while it is some instant. `settleEnd`, `lastEnd`, `lastStepAt`, `lastVtSq` and `fell` are the instants and the value the
rules refer back to: the end of SETTLE (R34), the end of the last step's period (R15, R44), the last step emitted
(R43), Vt squared at the last boundary (R41) and the last fall of STEP (R45). -/
structure Pgn where
  rateSq : Nat
  phase : Phase
  remaining : Nat
  emitted : Nat
  schedule : Option Sched
  stopMode : StopMode
  position : Word
  dirHigh : Bool
  pulseEnd : Option Nat
  stopHold : Option Nat
  settleEnd : Option Nat
  lastEnd : Option Nat
  lastStepAt : Nat
  lastVtSq : Nat
  fell : Option Nat
  deriving DecidableEq, Repr

/-- The PGN after any reset (R29). -/
def Pgn.reset : Pgn where
  rateSq := 0
  phase := .none
  remaining := 0
  emitted := 0
  schedule := none
  stopMode := .none
  position := 0
  dirHigh := false
  pulseEnd := none
  stopHold := none
  settleEnd := none
  lastEnd := none
  lastStepAt := 0
  lastVtSq := 0
  fell := none

/-- One channel: its CSQ and its PGN. `watchHalt` says that a halt order of a watch has reached the channel while its
present head was head (R57). `dwellStart` is the start of the running DWELL timer (R16). -/
structure Channel where
  cfg : ChanConfig
  state : ChanState
  queue : List Entry
  resolved : Option Resolved
  binding : Binding
  watchHalt : Bool
  kept : Option Kept
  dwellStart : Option Nat
  limp : Qual
  limn : Qual
  pgn : Pgn
  deriving DecidableEq, Repr

/-- A channel after any reset, with its limit qualifiers as given (R4, R29, R51, R52). -/
def Channel.reset (limp limn : Qual) : Channel where
  cfg := .reset
  state := .disabled
  queue := []
  resolved := none
  binding := .notChained
  watchHalt := false
  kept := none
  dwellStart := none
  limp := limp
  limn := limn
  pgn := .reset

/-! ### Rendezvous -/

/-- The states of an open slot (R73); a FREE slot is `none` in the table. -/
inductive SlotState where
  | opened
  | gathering
  | syncing
  deriving DecidableEq, Repr

/-- A slot in use (R72). The timeout is in milliseconds. -/
structure Slot where
  state : SlotState
  tag : Word
  members : Mask
  arrived : Mask
  timeout : Nat
  expiry : Option Nat
  external : Bool
  deriving DecidableEq, Repr

/-! ### Watches -/

/-- The sense of a POSITION watch (R93). -/
inductive Sense where
  | up
  | down
  | either
  deriving DecidableEq, Repr

/-- The edge of an EDGE watch (R93). -/
inductive Edge where
  | rise
  | fall
  | both
  deriving DecidableEq, Repr

/-- What a watch looks at, with its re-arm mode (R93). A POSITION watch under REARM holds its hysteresis H. -/
inductive WatchCond where
  | position (p : Word) (sense : Sense) (rearm : Option Nat)
  | edge (input : CapIx) (edge : Edge) (rearm : Bool)
  deriving DecidableEq, Repr

/-- The states of a watch that is not EMPTY (R94). -/
inductive WatchState where
  | dormant
  | armed
  | cooling
  | spent
  deriving DecidableEq, Repr

/-- A watch that is not EMPTY (R93). -/
structure Watch where
  state : WatchState
  channel : Chan
  cond : WatchCond
  notify : Bool
  decel : Mask
  abrupt : Mask
  auxSet : Mask
  auxClear : Mask
  arm : Option WatchIx
  deriving DecidableEq, Repr

/-! ### Intake -/

/-- A ring's base address and size as log2 (R112, R134). -/
structure RingPlace where
  base : Nat
  log2 : Nat
  deriving DecidableEq, Repr

/-- A ring's head buffer (R117). FETCHING holds the host address being read. -/
inductive Buffer where
  | empty
  | fetching (address : Nat)
  | holding (record : Block)
  deriving DecidableEq, Repr

/-- The RQI's state for one request ring (R112 to R118, R125). -/
structure RequestRing where
  place : Option RingPlace
  post : Nat
  fetch : Nat
  buffer : Buffer
  suspended : Bool
  credits : Nat
  deriving DecidableEq, Repr

/-- A request ring after any reset (R133). -/
def RequestRing.reset : RequestRing where
  place := none
  post := 0
  fetch := 0
  buffer := .empty
  suspended := false
  credits := 0

/-- The stall causes (R127, R183). -/
inductive StallCause where
  | none
  | queue
  | slot
  | external
  | credits
  | fence
  deriving DecidableEq, Repr

/-! ### Completions -/

/-- A record handed to the CPW (R142, R143), less its pass value, which it gets when it is written. `charged` is the
ring to which the credit of its request was charged; none for a notice (R125). `shows` is the model's own: the channel whose
position the record reports and the instant at which it was made, for the records in which a leading edge of that instant
counts (R33, log entry 28). -/
structure Cpl where
  notice : Bool
  kind : Byte
  status : Status
  flags : Flags
  channel : Byte
  lost : Byte
  tag : Word
  position : Word
  timestamp : Word
  auxA : Word
  auxB : Word
  charged : Option Ring
  shows : Option (Chan × Nat)
  deriving DecidableEq, Repr

/-- A pending HALT (R60). -/
structure PendingHalt where
  tag : Word
  halted : Mask
  untouched : Mask
  waiting : Mask
  deriving DecidableEq, Repr

/-! ### Part control -/

/-- The part states (R151). -/
inductive PartState where
  | off
  | starting
  | running
  | draining
  | failed
  deriving DecidableEq, Repr

/-- The fault codes of STAT (R183). -/
inductive FaultCode where
  | none
  | setupAddress
  | setupRead
  | setupReserved
  | ringSize
  | ringBase
  | setupValue
  | completionWrite
  deriving DecidableEq, Repr

/-- The whole part. -/
structure State where
  /-- The commands waiting, first in, first out. -/
  pending : List Instr
  /-- The model's own time, in reference cycles (log entry 1). -/
  now : Nat
  /-- The model's own counter of free choices among simultaneous events (log entry 4). -/
  choices : Nat
  /-- The eight channels: CSQ and PGN. -/
  chans : Vector Channel 8
  /-- The pending-halt list of the CSQs (R60). -/
  halts : List PendingHalt
  /-- The profile table; `none` is EMPTY (R27). -/
  profiles : Vector (Option Profile) 16
  /-- The rendezvous table; `none` is FREE (R72). -/
  slots : Vector (Option Slot) 8
  /-- The open list, oldest first (R73). -/
  openList : List SlotIx
  /-- The RVU drives XSYNC low (R88). -/
  xsyncLow : Bool
  /-- The XSYNC qualifier: the start of the present run of high readings, none while idle or reading low (R89). -/
  xsyncRun : Option Nat
  /-- The XSYNC level that the pull-up and the other parts give the wire, as last sampled (R177). -/
  xsync : Bool
  /-- The watch table; `none` is EMPTY (R93). -/
  watches : Vector (Option Watch) 16
  /-- The capture qualifiers (R108). -/
  caps : Vector Qual 4
  /-- The capture filter times in microseconds (R108). -/
  capFilter : Vector Nat 4
  /-- The AUX output latch (R110). -/
  aux : Mask
  /-- The main ring's intake state. -/
  mainRing : RequestRing
  /-- The control ring's intake state. -/
  ctrlRing : RequestRing
  /-- The stall cause shown in STAT (R127). -/
  stall : StallCause
  /-- INDEX_ERROR of STAT (R115). -/
  indexError : Bool
  /-- The completion ring's base and size (R134). -/
  cplPlace : Option RingPlace
  /-- The write index, CPL_WRITE (R134). -/
  cplWrite : Nat
  /-- The pass value (R134). -/
  pass : Bool
  /-- The retire index, CPL_RETIRE (R135). -/
  cplRetire : Nat
  /-- The posting queue, head first (R139). -/
  posting : List Cpl
  /-- The completion write under way, with its host address (R136); it writes the record at the head of the posting queue,
  which stays there until the write completes. -/
  writing : Option Nat
  /-- The lost count, 0 to 255 (R140). -/
  lost : Nat
  /-- The coalescing count and the delay in microseconds, none before the first entry to RUNNING (R145, R150). -/
  coalescing : Option (Nat × Nat)
  /-- The unannounced count (R145). -/
  unannounced : Nat
  /-- The instant of the oldest unannounced write (R145). -/
  oldest : Option Nat
  /-- INT_CAUSE: bit 0 CPL, 1 URGENT, 2 FAULT, 3 SETUP (R144, R182). -/
  intCause : BitVec 4
  /-- INT_ENABLE of CTRL (R147). -/
  intEnable : Bool
  /-- The HIF's interrupt request is asserted (R147). -/
  irq : Bool
  /-- An input, as last sampled: message-signalled interrupts are enabled in the configuration space (R147, log entry
  17). -/
  msiEnabled : Bool
  /-- An output: how many interrupt messages have been sent (R147, log entry 17). -/
  messages : Nat
  /-- The part state (R151). -/
  part : PartState
  /-- SETUP_LO (R153). -/
  setupLo : Word
  /-- SETUP_HI (R153). -/
  setupHi : Word
  /-- The setup read under way, with its host address (R154). -/
  setupRead : Option Nat
  /-- The fault code of STAT (R155, R161). -/
  faultCode : FaultCode
  /-- The ESTOP latch (R163). -/
  estopLatch : Bool
  /-- The ESTOP qualifier; qualified means asserted (R163). -/
  estop : Qual
  /-- The RST# qualifier; qualified means held in reset (R172). -/
  rst : Qual
  /-- The safe pattern held by PCT (R153, R156). -/
  safePattern : Option Mask
  /-- The motion clock in microseconds (R157). -/
  clock : Word
  /-- Reference cycles counted since the motion clock's last microsecond, 0 to 39 (R157, log entry 21). -/
  clockPart : Nat
  deriving DecidableEq, Repr

/-- A qualifier whose pin is sampled high and whose qualified state is `q`. -/
def Qual.high (q : Bool) : Qual where
  level := true
  since := 0
  before := none
  qualified := q

/-- The machine right after reset: part control by R169, intake by R133, the completion writer by R150, the channels
by R4, R29, R51 and R52, the tables by R27, R72 and R93, the latch and capture filters by R108 and R110. Every input
pin is sampled high (log entry 7), so no limit input is active and ESTOP is negated. -/
def State.reset : State where
  pending := []
  now := 0
  choices := 0
  chans := Vector.replicate 8 (Channel.reset (.high false) (.high false))
  halts := []
  profiles := Vector.replicate 16 none
  slots := Vector.replicate 8 none
  openList := []
  xsyncLow := false
  xsyncRun := none
  xsync := true
  watches := Vector.replicate 16 none
  caps := Vector.replicate 4 (.high true)
  capFilter := Vector.replicate 4 0
  aux := 0
  mainRing := .reset
  ctrlRing := .reset
  stall := .none
  indexError := false
  cplPlace := none
  cplWrite := 0
  pass := true
  cplRetire := 0
  posting := []
  writing := none
  lost := 0
  coalescing := none
  unannounced := 0
  oldest := none
  intCause := 0
  intEnable := false
  irq := false
  msiEnabled := false
  messages := 0
  part := .off
  setupLo := 0
  setupHi := 0
  setupRead := none
  faultCode := .none
  estopLatch := false
  estop := .high false
  rst := .high false
  safePattern := none
  clock := 0
  clockPart := 0

end Sys2Proof.Machine
end

