-- ==== Sys2Proof/Machine/Bits.lean ====
section
/-! DEFINITION. Bit fields, masks, byte order and the integer square root: the helpers the meanings share. -/

namespace Sys2Proof.Machine

/-- All channel numbers, lowest first. -/
def allChans : List Chan := [0, 1, 2, 3, 4, 5, 6, 7]

/-- All slot numbers, lowest first. -/
def allSlots : List SlotIx := [0, 1, 2, 3, 4, 5, 6, 7]

/-- All watch numbers, lowest first. -/
def allWatches : List WatchIx := [0, 1, 2, 3, 4, 5, 6, 7, 8, 9, 10, 11, 12, 13, 14, 15]

/-- All capture inputs, lowest first. -/
def allCaps : List CapIx := [0, 1, 2, 3]

/-- Channel c is named by the mask (R178). -/
def hasChan (m : Mask) (c : Chan) : Bool := m.getLsbD c.val

/-- The mask that names channel c alone. -/
def chanBit (c : Chan) : Mask := BitVec.ofNat 8 (2 ^ c.val)

/-- The mask of the channels for which p holds. -/
def maskOf (p : Chan → Bool) : Mask :=
  allChans.foldl (fun m c => if p c then m ||| chanBit c else m) 0

/-- The channels a mask names, lowest first. -/
def chansOf (m : Mask) : List Chan := allChans.filter (hasChan m)

/-- The lowest-numbered channel a mask names; channel 0 for the empty mask, which no slot holds. -/
def lowestChan (m : Mask) : Chan := (chansOf m).headD 0

/-- Every listed element of a vector changed by a function of its index and itself. -/
def updateAll {α : Type} {n : Nat} (l : List (Fin n)) (f : Fin n → α → α) (v : Vector α n) : Vector α n :=
  l.foldl (fun (v : Vector α n) (i : Fin n) => v.set i (f i v[i])) v

/-- The number spelled by bytes with the least significant byte first (R178). -/
def littleEndian : List Byte → Nat
  | [] => 0
  | b :: bs => b.toNat + 256 * littleEndian bs

/-- The byte of a 64-byte block at an offset (R178). -/
def blockByte (r : Block) (offset : Nat) : Byte := r.toList.getD offset 0

/-- The unsigned field of `size` bytes at an offset of a 64-byte block (R178). -/
def blockField (r : Block) (offset size : Nat) : Nat :=
  littleEndian ((List.range size).map fun i => blockByte r (offset + i))

/-- The four-byte field at an offset of a 64-byte block. -/
def blockWord (r : Block) (offset : Nat) : Word := BitVec.ofNat 32 (blockField r offset 4)

/-- The four bytes of a word, least significant first (R178). -/
def wordBytes (w : Word) : List Byte :=
  [w.extractLsb' 0 8, w.extractLsb' 8 8, w.extractLsb' 16 8, w.extractLsb' 24 8]

/-- One bit as a number. -/
def bitNat (b : Bool) : Nat := if b then 1 else 0

/-- Search for the integer root: `root` is kept, and each lower bit is added when the square still fits. -/
def isqrtBits (n : Nat) : Nat → Nat → Nat
  | 0, root => root
  | k + 1, root =>
    if (root + 2 ^ k) * (root + 2 ^ k) ≤ n then isqrtBits n k (root + 2 ^ k) else isqrtBits n k root

/-- The integer square root, rounded down (R30). -/
def isqrt (n : Nat) : Nat := isqrtBits n (n.log2 / 2 + 1) 0

/-- The period of a step of the given rate squared, in reference cycles (R30, R31). -/
def stepPeriod (rateSq : Nat) : Nat := Config.referenceHz / isqrt rateSq

/-- Microseconds as reference cycles. -/
def usCycles (us : Nat) : Nat := us * Config.cyclesPerUs

end Sys2Proof.Machine
end

