-- ==== Sys2Proof/Machine/Flags.lean ====
section
/-! DEFINITION. The codes of R183 and the words that pack several items: STAT (R182), the aux B of QUERY and the aux A
of a WATCH notice (R180), the flags byte of a completion (R180), the interrupt causes (R144). -/

namespace Sys2Proof.Machine

/-- Status codes (R183). -/
def Status.code : Status → Nat
  | .ok => 0
  | .badKind => 1
  | .badField => 2
  | .wrongRing => 3
  | .channelOff => 4
  | .channelHeld => 5
  | .cancelled => 6
  | .halted => 7
  | .limit => 8
  | .range => 9
  | .expired => 10
  | .memberLost => 11
  | .aborted => 12
  | .tooLate => 13
  | .notRunning => 14
  | .busy => 15
  | .estopLatched => 16
  | .inputActive => 17
  | .notFound => 18

/-- Channel-state codes (R183). -/
def ChanState.code : ChanState → Nat
  | .disabled => 0
  | .idle => 1
  | .running => 2
  | .dwelling => 3
  | .waiting => 4
  | .stopping => 5
  | .held => 6

/-- Phase codes (R183). -/
def Phase.code : Phase → Nat
  | .none => 0
  | .settle => 1
  | .rampUp => 2
  | .cruise => 3
  | .rampDown => 4
  | .final => 5

/-- Watch-state codes (R183); `none` is EMPTY. -/
def watchCode : Option Watch → Nat
  | none => 0
  | some w =>
    match w.state with
    | .dormant => 1
    | .armed => 2
    | .cooling => 3
    | .spent => 4

/-- Part-state codes (R183). -/
def PartState.code : PartState → Nat
  | .off => 0
  | .starting => 1
  | .running => 2
  | .draining => 3
  | .failed => 4

/-- Stall-cause codes (R183). -/
def StallCause.code : StallCause → Nat
  | .none => 0
  | .queue => 1
  | .slot => 2
  | .external => 3
  | .credits => 4
  | .fence => 5

/-- Fault codes (R183). -/
def FaultCode.code : FaultCode → Nat
  | .none => 0
  | .setupAddress => 1
  | .setupRead => 2
  | .setupReserved => 3
  | .ringSize => 4
  | .ringBase => 5
  | .setupValue => 6
  | .completionWrite => 7

/-- The ring number reported in aux values: 0 main, 1 control (R183). -/
def ringCode : Ring → Nat
  | .main => 0
  | .ctrl => 1

/-- The flags byte of a completion record (R180). -/
def Flags.byte (f : Flags) : Byte :=
  BitVec.ofNat 8 (bitNat f.unbound + 2 * bitNat f.short + 4 * bitNat f.overridden + 8 * bitNat f.watchHalt)

/-- The notice kind codes (R183). -/
def noticeWatch : Byte := 32
/-- LIMIT. -/
def noticeLimitKind : Byte := 33
/-- ESTOP. -/
def noticeEstop : Byte := 34
/-- INTAKE_FAULT. -/
def noticeIntakeFault : Byte := 35

/-- The INT_CAUSE bits (R182). -/
def causeCpl : BitVec 4 := 1
/-- URGENT. -/
def causeUrgent : BitVec 4 := 2
/-- FAULT. -/
def causeFault : BitVec 4 := 4
/-- SETUP. -/
def causeSetup : BitVec 4 := 8

/-- The channel is at rest (R51): in every state but RUNNING and STOPPING, and not in HELD while STEP is high. -/
def Channel.atRest (ch : Channel) : Bool :=
  match ch.state with
  | .running | .stopping => false
  | .held => ch.pgn.pulseEnd.isNone
  | .disabled | .idle | .dwelling | .waiting => true

/-- The queue is open (R5). -/
def Channel.isOpen (ch : Channel) : Bool :=
  match ch.state with
  | .idle | .running | .dwelling | .waiting => true
  | .disabled | .held | .stopping => false

/-- The rate reported: the integer root of the rate squared of the last step emitted, 0 at rest (R50). -/
def Channel.rate (ch : Channel) : Nat := isqrt ch.pgn.rateSq

/-- A DIR level stands for the positive direction under the polarity (R34). -/
def dirPositive (pol : DirPolarity) (high : Bool) : Bool :=
  match pol with
  | .posHigh => high
  | .posLow => !high

/-- The direction the held DIR level stands for (R50). -/
def Channel.positive (ch : Channel) : Bool := dirPositive ch.cfg.dirPolarity ch.pgn.dirHigh

/-- The head is bound (R20). -/
def Channel.headBound (ch : Channel) : Bool :=
  match ch.binding with
  | .bound _ _ _ _ => true
  | .notChained | .pending | .unbound | .closed => false

/-- The aux B of a QUERY completion (R70, R180). -/
def queryAuxB (ch : Channel) (latch : Bool) : Word :=
  BitVec.ofNat 32
    (ch.state.code + 8 * bitNat ch.atRest + 16 * ch.pgn.phase.code + 256 * ch.queue.length
      + 4096 * bitNat ch.pgn.dirHigh + 8192 * bitNat ch.positive + 16384 * bitNat ch.headBound
      + 32768 * bitNat ch.limp.qualified + 65536 * bitNat ch.limn.qualified + 131072 * bitNat latch)

/-- The aux A of a WATCH notice (R104, R180): `up` is a positive step or a rise, `w` the watch just after firing. -/
def watchAuxA (w : Watch) (up : Bool) : Word :=
  match w.cond with
  | .position _ _ _ => BitVec.ofNat 32 (2 * bitNat up + 256 * watchCode (some w))
  | .edge input _ _ => BitVec.ofNat 32 (1 + 2 * bitNat up + 16 * input.val + 256 * watchCode (some w))

/-- STAT as it reads (R182). -/
def State.statWord (s : State) : Word :=
  BitVec.ofNat 32
    (s.part.code + 8 * bitNat s.estopLatch + 16 * bitNat s.estop.qualified + 256 * s.stall.code
      + 2048 * bitNat s.indexError + 65536 * s.faultCode.code)

/-- CTRL as it reads: ENABLE is 1 in STARTING and RUNNING (R152), SOFT_RESET reads 0 (R182). -/
def State.ctrlWord (s : State) : Word :=
  BitVec.ofNat 32 (bitNat (s.part == .starting || s.part == .running) + 4 * bitNat s.intEnable)

end Sys2Proof.Machine
end

