-- ==== Sys2Proof/Machine/Operands.lean ====
section
/-! DEFINITION. The layouts of R179 to R181: the fields of a request record of each kind and its unused bytes, the
fields of the setup block, and the 32 bytes of a completion record. -/

namespace Sys2Proof.Machine

/-- The seventeen request kinds (R120). -/
inductive ReqKind where
  | move
  | dwell
  | setPosition
  | mark
  | rendezvous
  | setProfile
  | fence
  | nop
  | halt
  | resume
  | overrideRate
  | cancelRendezvous
  | setWatch
  | clearWatch
  | setChannel
  | query
  | clearEstop
  deriving DecidableEq, Repr

/-- The request kind a code names; none for a code no kind has (R183). -/
def reqKind? (code : Nat) : Option ReqKind :=
  match code with
  | 1 => some .move
  | 2 => some .dwell
  | 3 => some .setPosition
  | 4 => some .mark
  | 5 => some .rendezvous
  | 6 => some .setProfile
  | 7 => some .fence
  | 8 => some .nop
  | 16 => some .halt
  | 17 => some .resume
  | 18 => some .overrideRate
  | 19 => some .cancelRendezvous
  | 20 => some .setWatch
  | 21 => some .clearWatch
  | 22 => some .setChannel
  | 23 => some .query
  | 24 => some .clearEstop
  | _ => none

/-- The code of a request kind (R183). -/
def ReqKind.code : ReqKind → Byte
  | .move => 1
  | .dwell => 2
  | .setPosition => 3
  | .mark => 4
  | .rendezvous => 5
  | .setProfile => 6
  | .fence => 7
  | .nop => 8
  | .halt => 16
  | .resume => 17
  | .overrideRate => 18
  | .cancelRendezvous => 19
  | .setWatch => 20
  | .clearWatch => 21
  | .setChannel => 22
  | .query => 23
  | .clearEstop => 24

/-- The ring carries the kind (R120); NOP is carried by both. -/
def ReqKind.carriedBy (k : ReqKind) (ring : Ring) : Bool :=
  match k with
  | .move | .dwell | .setPosition | .mark | .rendezvous | .setProfile | .fence => ring == .main
  | .nop => true
  | .halt | .resume | .overrideRate | .cancelRendezvous | .setWatch | .clearWatch | .setChannel | .query
  | .clearEstop => ring == .ctrl

/-- The kind code field of a record (R179). -/
def recKind (r : Block) : Byte := blockByte r 0

/-- The channel byte of a record (R179). -/
def recChannel (r : Block) : Nat := (blockByte r 1).toNat

/-- The tag field of a record (R179). -/
def recTag (r : Block) : Word := blockWord r 4

/-- The channel a record names; channel 0 where the byte is above 7, which the checks refuse first. -/
def recChan (r : Block) : Chan := ⟨recChannel r % 8, Nat.mod_lt _ (by decide)⟩

/-- The mask in a byte of a record. -/
def recMask (r : Block) (offset : Nat) : Mask := blockByte r offset

/-- The bytes that the layout of a kind assigns to fields, as offset and size (R179). -/
def ReqKind.fields : ReqKind → List (Nat × Nat)
  | .move => [(0, 2), (4, 4), (8, 1), (9, 1), (10, 1), (12, 4), (16, 4)]
  | .dwell => [(0, 2), (4, 4), (8, 3)]
  | .setPosition => [(0, 2), (4, 4), (8, 4)]
  | .mark => [(0, 2), (4, 4), (8, 1), (9, 1)]
  | .rendezvous => [(0, 1), (4, 4), (8, 1), (9, 1), (12, 4)]
  | .setProfile => [(0, 1), (4, 4), (8, 1), (12, 4), (16, 4), (20, 3), (24, 3)]
  | .fence | .nop => [(0, 1), (4, 4)]
  | .halt => [(0, 1), (4, 4), (8, 1), (9, 1)]
  | .resume => [(0, 1), (4, 4), (8, 1)]
  | .overrideRate => [(0, 2), (4, 4), (8, 4)]
  | .cancelRendezvous => [(0, 1), (4, 4), (8, 4)]
  | .setWatch => [(0, 2), (4, 4), (8, 20)]
  | .clearWatch => [(0, 1), (4, 4), (8, 1)]
  | .setChannel => [(0, 2), (4, 4), (8, 20)]
  | .query => [(0, 2), (4, 4)]
  | .clearEstop => [(0, 1), (4, 4)]

/-- An offset lies in one of the fields. -/
def inFields (fields : List (Nat × Nat)) (offset : Nat) : Bool :=
  fields.any fun f => decide (f.1 ≤ offset) && decide (offset < f.1 + f.2)

/-- Every byte outside the given fields is zero (R120, third check; R155, first check). -/
def unusedZero (fields : List (Nat × Nat)) (r : Block) : Bool :=
  (List.range 64).all fun i => inFields fields i || blockByte r i == 0

/-- A flag field holds 0 or 1 (R178). -/
def flagField (b : Byte) : Bool := b == 0 || b == 1

/-- The mode a MOVE record gives: 1 RELATIVE, 2 ABSOLUTE (R179). -/
def moveMode? (b : Byte) : Option MoveMode :=
  if b = 1 then some .relative else if b = 2 then some .absolute else none

/-- The mode a HALT record gives: 1 DECEL, 2 ABRUPT (R179). -/
def haltMode? (b : Byte) : Option StopMode :=
  if b = 1 then some .decel else if b = 2 then some .abrupt else none

/-- An index below 16 in a byte. -/
def index16? (b : Byte) : Option (Fin 16) :=
  if h : b.toNat < 16 then some ⟨b.toNat, h⟩ else none

/-- The four values of a SET_PROFILE record (R179). -/
def recProfile (r : Block) : Profile where
  vs := blockField r 12 4
  vc := blockField r 16 4
  a := blockField r 20 3
  b := blockField r 24 3

/-- The values of a profile lie in their ranges (R27, R28). -/
def Profile.valid (p : Profile) : Bool :=
  decide (1 ≤ p.vs) && decide (p.vs ≤ p.vc) && decide (p.vc ≤ Config.rateMax)
    && decide (1 ≤ p.a) && decide (p.a ≤ Config.accelMax) && decide (1 ≤ p.b) && decide (p.b ≤ Config.accelMax)

/-- The configuration record in a SET_CHANNEL record (R179), whatever its values; `recConfigCoded` says its coded fields
hold listed values. -/
def recConfig (r : Block) : ChanConfig where
  enable := blockByte r 8 == 1
  pulseWidth := blockField r 9 1
  dirSettle := blockField r 10 1
  limitFilter := blockField r 11 1
  maxRate := blockField r 12 4
  softMin := (blockWord r 16).toInt
  softMax := (blockWord r 20).toInt
  limitPolarity := if blockByte r 24 == 2 then .activeHigh else .activeLow
  limpEnable := blockByte r 25 == 1
  limnEnable := blockByte r 26 == 1
  dirPolarity := if blockByte r 27 == 2 then .posLow else .posHigh

/-- The coded fields of a SET_CHANNEL record hold one of their listed values (R62, R179). -/
def recConfigCoded (r : Block) : Bool :=
  flagField (blockByte r 8) && (blockByte r 24 == 1 || blockByte r 24 == 2) && flagField (blockByte r 25)
    && flagField (blockByte r 26) && (blockByte r 27 == 1 || blockByte r 27 == 2)

/-- The values of a configuration record lie in their ranges (R52, R62). -/
def ChanConfig.valid (c : ChanConfig) : Bool :=
  decide (1 ≤ c.pulseWidth) && decide (c.pulseWidth ≤ 63) && decide (1 ≤ c.dirSettle) && decide (c.dirSettle ≤ 255)
    && decide (1 ≤ c.maxRate) && decide (c.maxRate ≤ Config.rateMax) && decide (c.maxRate ≤ 500000 / c.pulseWidth)
    && decide (-2147483648 ≤ c.softMin) && decide (c.softMin ≤ c.softMax) && decide (c.softMax ≤ 2147483647)
    && decide (c.limitFilter ≤ 255)

/-- The sense code of a SET_WATCH record (R179). -/
def sense? (b : Byte) : Option Sense :=
  if b = 1 then some .up else if b = 2 then some .down else if b = 3 then some .either else none

/-- The edge code of a SET_WATCH record (R179). -/
def edge? (b : Byte) : Option Edge :=
  if b = 1 then some .rise else if b = 2 then some .fall else if b = 3 then some .both else none

/-- The re-arm mode of a SET_WATCH record: 1 ONESHOT (false), 2 REARM (true) (R179). -/
def rearmMode? (b : Byte) : Option Bool :=
  if b = 1 then some false else if b = 2 then some true else none

/-- What a SET_WATCH record makes the watch look at; none where a field of R95 is bad for the kind. -/
def recWatchCond? (r : Block) : Option WatchCond :=
  let h := blockField r 20 2
  match rearmMode? (blockByte r 13) with
  | none => none
  | some rearm =>
    if blockByte r 9 = 1 then
      match sense? (blockByte r 10) with
      | none => none
      | some sense =>
        if blockByte r 11 = 0 ∧ blockByte r 12 = 0 ∧ (rearm = true ↔ h ≠ 0) then
          some (.position (blockWord r 16) sense (if rearm then some h else none))
        else none
    else if blockByte r 9 = 2 then
      match edge? (blockByte r 12) with
      | none => none
      | some edge =>
        if hi : (blockByte r 11).toNat < 4 then
          if blockByte r 10 = 0 ∧ blockWord r 16 = 0 ∧ h = 0 then
            some (.edge ⟨(blockByte r 11).toNat, hi⟩ edge rearm)
          else none
        else none
    else none

/-- The ARM target of a SET_WATCH record: the outer none is a bad field (R95). -/
def recArm? (r : Block) : Option (Option WatchIx) :=
  if blockByte r 26 = 0 then
    if blockByte r 27 = 0 then some none else none
  else if blockByte r 26 = 1 then
    match index16? (blockByte r 27) with
    | some i => some (some i)
    | none => none
  else none

/-- The index and the watch a SET_WATCH record describes; none where a check of R95 fails. -/
def recWatch? (r : Block) : Option (WatchIx × Watch) :=
  match index16? (blockByte r 8), recWatchCond? r, recArm? r with
  | some i, some cond, some arm =>
    if recChannel r < 8 ∧ recMask r 24 &&& recMask r 25 = 0 ∧ flagField (blockByte r 14) ∧ flagField (blockByte r 15) then
      some (i, {
        state := if blockByte r 15 = 1 then .armed else .dormant
        channel := recChan r
        cond := cond
        notify := blockByte r 14 == 1
        decel := recMask r 22
        abrupt := recMask r 23
        auxSet := recMask r 24
        auxClear := recMask r 25
        arm := arm })
    else none
  | _, _, _ => none

/-! ### The setup block (R181) -/

/-- The fields of the setup block, as offset and size: bytes 27 and 46 to 63 are unused. -/
def setupFields : List (Nat × Nat) := [(0, 27), (28, 18)]

/-- The three ring sizes as log2. -/
def setupMainLog2 (b : Block) : Nat := blockField b 24 1
/-- Control ring size as log2. -/
def setupCtrlLog2 (b : Block) : Nat := blockField b 25 1
/-- Completion ring size as log2. -/
def setupCplLog2 (b : Block) : Nat := blockField b 26 1
/-- The coalescing count. -/
def setupCount (b : Block) : Nat := blockField b 28 4
/-- The coalescing delay in microseconds. -/
def setupDelay (b : Block) : Nat := blockField b 32 4
/-- The filter time of a capture input. -/
def setupFilter (b : Block) (i : CapIx) : Nat := blockField b (36 + 2 * i.val) 2
/-- The AUX initial pattern. -/
def setupInitial (b : Block) : Mask := blockByte b 44
/-- The AUX safe pattern. -/
def setupSafe (b : Block) : Mask := blockByte b 45

/-- The fault code of the first setup check that fails; none when all pass (R155). -/
def setupFault? (b : Block) : Option FaultCode :=
  if !unusedZero setupFields b then some .setupReserved
  else if ¬(4 ≤ setupMainLog2 b ∧ setupMainLog2 b ≤ 12 ∧ 4 ≤ setupCtrlLog2 b ∧ setupCtrlLog2 b ≤ 8
      ∧ 5 ≤ setupCplLog2 b ∧ setupCplLog2 b ≤ 13) then some .ringSize
  else if ¬(blockField b 0 8 % 64 = 0 ∧ blockField b 8 8 % 64 = 0 ∧ blockField b 16 8 % 64 = 0) then some .ringBase
  else if ¬(setupCount b ≤ 255 ∧ setupDelay b ≤ 65535 ∧ allCaps.all (fun i => decide (setupFilter b i ≤ 255))) then
    some .setupValue
  else none

/-! ### The completion record (R180) -/

/-- The 32 bytes of a completion record written with the given pass value (R180). -/
def Cpl.bytes (r : Cpl) (pass : Bool) : List Byte :=
  [BitVec.ofNat 8 (bitNat pass + 2 * bitNat r.notice), r.kind, BitVec.ofNat 8 r.status.code, r.flags.byte,
    r.channel, r.lost, 0, 0]
  ++ wordBytes r.tag ++ wordBytes r.position ++ wordBytes r.timestamp ++ wordBytes r.auxA ++ wordBytes r.auxB
  ++ [0, 0, 0, 0]

end Sys2Proof.Machine
end

