-- ==== Sys2Proof/Machine/Ops.lean ====
section
/-! DEFINITION. The named operations on the state: a channel read and written, a record handed to the completion
writer, the AUX latch written, an interrupt cause set, time passing, and the signals that the channel sequencers, the
rendezvous unit and the watch unit send each other within one step. -/

namespace Sys2Proof.Machine

/-! ### Channels -/

/-- Channel c. -/
def State.chan (s : State) (c : Chan) : Channel := s.chans[c]

/-- Channel c replaced. -/
def State.setChan (s : State) (c : Chan) (ch : Channel) : State := { s with chans := s.chans.set c ch }

/-- Channel c changed by a function. -/
def State.modChan (s : State) (c : Chan) (f : Channel → Channel) : State := s.setChan c (f (s.chan c))

/-- The position of channel c (R33). -/
def State.position (s : State) (c : Chan) : Word := (s.chan c).pgn.position

/-- The head of a channel's queue, when it is a MOVE. -/
def Channel.headMove? (ch : Channel) : Option MoveEntry :=
  match ch.queue with
  | .move m :: _ => some m
  | _ => none

/-- A slot written. -/
def State.setSlot (s : State) (i : SlotIx) (x : Option Slot) : State := { s with slots := s.slots.set i x }

/-- A watch written. -/
def State.setWatch (s : State) (i : WatchIx) (w : Option Watch) : State := { s with watches := s.watches.set i w }

/-- A profile written. -/
def State.setProfile (s : State) (i : ProfIx) (p : Option Profile) : State := { s with profiles := s.profiles.set i p }

/-- The intake state of a ring. -/
def State.ring (s : State) : Ring → RequestRing
  | .main => s.mainRing
  | .ctrl => s.ctrlRing

/-- The intake state of a ring replaced. -/
def State.setRing (s : State) (ring : Ring) (r : RequestRing) : State :=
  match ring with
  | .main => { s with mainRing := r }
  | .ctrl => { s with ctrlRing := r }

/-- The size of a ring from its place; 0 where no place is held. -/
def placeSize (p : Option RingPlace) : Nat :=
  match p with
  | some x => 2 ^ x.log2
  | none => 0

/-- The number of posted records not yet consumed (R114): post minus fetch, modulo the size. -/
def RequestRing.posted (r : RequestRing) : Nat :=
  (r.post + placeSize r.place - r.fetch) % placeSize r.place

/-! ### The completion writer -/

/-- A DONE record joins the posting queue (R139). -/
def State.post (s : State) (r : Cpl) : State := { s with posting := s.posting ++ [r] }

/-- The number of notices in the posting queue (R139). -/
def State.notices (s : State) : Nat := s.posting.countP (·.notice)

/-- A notice is handed to the CPW: it joins with the lost count, or is dropped and counted (R140). -/
def State.postNotice (s : State) (r : Cpl) : State :=
  if Config.noticeLimit ≤ s.notices then { s with lost := min 255 (s.lost + 1) }
  else { s with posting := s.posting ++ [{ r with lost := BitVec.ofNat 8 s.lost }], lost := 0 }

/-- A DONE record as R142 gives it: the timestamp is the motion clock now. -/
def State.done (s : State) (charged : Ring) (kind : Byte) (tag : Word) (status : Status) (flags : Flags)
    (channel : Byte) (position auxA auxB : Word) : Cpl where
  notice := false
  kind := kind
  status := status
  flags := flags
  channel := channel
  lost := 0
  tag := tag
  position := position
  timestamp := s.clock
  auxA := auxA
  auxB := auxB
  charged := some charged
  shows := none

/-- A notice as R143 gives it. -/
def State.notice (s : State) (kind : Byte) (tag : Word) (channel : Byte) (position auxA auxB : Word) : Cpl where
  notice := true
  kind := kind
  status := .ok
  flags := .clear
  channel := channel
  lost := 0
  tag := tag
  position := position
  timestamp := s.clock
  auxA := auxA
  auxB := auxB
  charged := none
  shows := none

/-- A channel number as the byte of a record. -/
def chanByte (c : Chan) : Byte := BitVec.ofNat 8 c.val

/-- The completion of an entry of channel c, with the channel's position now (R10). -/
def State.entryDone (s : State) (c : Chan) (kind : ReqKind) (tag : Word) (status : Status) (flags : Flags)
    (auxA auxB : Word) : Cpl :=
  s.done .main kind.code tag status flags (chanByte c) (s.position c) auxA auxB

/-- A record that reports where channel c stands at the instant it is made, so that a leading edge of that instant counts in
it (R33). -/
def Cpl.showing (r : Cpl) (s : State) (c : Chan) : Cpl := { r with shows := some (c, s.now) }

/-- A record as channel c takes a step to a position at the instant `now` (R33): one that was made at that instant to show
this channel reports the count that includes the step. The aux A of a CANCELLED SET_POSITION is a position too (R10). -/
def Cpl.atStep (r : Cpl) (c : Chan) (now : Nat) (position : Word) : Cpl :=
  if r.shows = some (c, now) then
    { r with
      position := position
      auxA := if r.status = .cancelled ∧ r.kind = ReqKind.setPosition.code then position else r.auxA }
  else r

/-- The posting queue as channel c takes a step to a position now (R33, log entry 28). -/
def State.showStep (s : State) (c : Chan) (position : Word) : State :=
  { s with posting := s.posting.map fun r => r.atStep c s.now position }

/-- A number as an aux value. -/
def auxNat (n : Nat) : Word := BitVec.ofNat 32 n

/-- A mask as an aux value. -/
def auxMask (m : Mask) : Word := m.setWidth 32

/-- Interrupt causes set (R144). -/
def State.raise (s : State) (cause : BitVec 4) : State := { s with intCause := s.intCause ||| cause }

/-- The AUX latch after a write (R110): set lines high, clear lines low, the others kept. -/
def auxWrite (latch set clear : Mask) : Mask := (latch ||| set) &&& ~~~clear

/-! ### Time -/

/-- The motion clock counts in this part state (R157). -/
def PartState.counting : PartState → Bool
  | .running | .draining | .failed => true
  | .off | .starting => false

/-- One reference cycle passes (log entry 1). The motion clock counts it where it counts (R157), and wraps. -/
def State.nextCycle (s : State) : State :=
  if !s.part.counting then { s with now := s.now + 1 }
  else if s.clockPart + 1 < Config.cyclesPerUs then { s with now := s.now + 1, clockPart := s.clockPart + 1 }
  else { s with now := s.now + 1, clock := s.clock + 1, clockPart := 0 }

/-- An instant that has come. -/
def reached (now : Nat) (due : Option Nat) : Bool :=
  match due with
  | some t => decide (t ≤ now)
  | none => false

/-- The part is held in reset by the pin (R172). -/
def State.inReset (s : State) : Bool := s.rst.qualified

/-- Watches are evaluated in this part state (R98). -/
def PartState.evaluatesWatches : PartState → Bool
  | .running | .draining => true
  | .off | .starting | .failed => false

/-! ### Signals between blocks within one step -/

/-- What one block reports to another within a step: an arrival or a withdrawal at the RVU (R78, R84), a step at the
WTU (R33, R99). -/
inductive Signal where
  | arrive (c : Chan) (slot : SlotIx)
  | withdraw (c : Chan) (slot : SlotIx)
  | stepped (c : Chan) (position : Word) (positive : Bool)
  deriving DecidableEq, Repr

/-- The outcome of an action inside a step: the state, and the signals still to be taken. -/
abbrev Act := State × List Signal

/-- An action followed by another; the signals of both, in order. -/
def Act.andThen (a : Act) (f : State → Act) : Act :=
  let b := f a.1
  (b.1, a.2 ++ b.2)

/-- An action for each element of a list, in order. -/
def eachAct {α : Type} (l : List α) (f : α → State → Act) (s : State) : Act :=
  l.foldl (fun a x => a.andThen (f x)) (s, [])

end Sys2Proof.Machine
end

