-- ==== Sys2Proof/Machine/Qualifiers.lean ====
section
/-! DEFINITION. The input qualifiers (R66, R108, R163, R172) and the XSYNC qualifier (R89): how each follows the samples of
its pin, and the instant at which it completes a change. -/

namespace Sys2Proof.Machine

/-! ### One qualifier -/

/-- A qualifier after one more sample of its pin at the instant `now`. `target` is the qualified state that the level
sampled before calls for: where it differs from the one held, the sample turns back a change under qualification. -/
def Qual.sample (q : Qual) (target level : Bool) (now : Nat) : Qual :=
  if q.level = level then q
  else { q with level := level, since := now, before := if q.qualified = target then none else some q.since }

/-- A change completes at the instant `now`: the level that calls for it has held for the filter time, up to this
instant, or up to the sample of this very instant that turned it back. `target` is the qualified state that the level
last sampled calls for. -/
def Qual.completes (q : Qual) (target : Bool) (filterUs now : Nat) : Bool :=
  (q.qualified != target && decide (q.since + usCycles filterUs ≤ now))
    || (q.since == now && reached now (q.before.map (· + usCycles filterUs)))

/-- A qualifier that has completed its change. -/
def Qual.change (q : Qual) : Qual := { q with before := none, qualified := !q.qualified }

/-- A qualifier that takes a state without filtering, with no change under qualification (R64, R109, R169). -/
def Qual.take (q : Qual) (state : Bool) : Qual := { q with before := none, qualified := state }

/-! ### The limit inputs -/

/-- A pin level is active under a limit polarity (R66). -/
def limitActive (pol : LimitPolarity) (level : Bool) : Bool :=
  match pol with
  | .activeLow => !level
  | .activeHigh => level

/-- A limit qualifier of a channel. -/
def Channel.limit (ch : Channel) : LimitInput → Qual
  | .limp => ch.limp
  | .limn => ch.limn

/-- A limit qualifier of a channel replaced. -/
def Channel.setLimit (ch : Channel) (input : LimitInput) (q : Qual) : Channel :=
  match input with
  | .limp => { ch with limp := q }
  | .limn => { ch with limn := q }

/-- The input is enabled (R52). -/
def Channel.limitEnabled (ch : Channel) : LimitInput → Bool
  | .limp => ch.cfg.limpEnable
  | .limn => ch.cfg.limnEnable

/-- The qualified state that a limit qualifier's sampled level calls for under the channel's polarity (R66). -/
def Channel.limitTarget (ch : Channel) (input : LimitInput) : Bool := limitActive ch.cfg.limitPolarity (ch.limit input).level

/-- A limit qualifier completes a change at the instant `now`, under the channel's filter time (R66). -/
def Channel.limitCompletes (ch : Channel) (input : LimitInput) (now : Nat) : Bool :=
  (ch.limit input).completes (ch.limitTarget input) ch.cfg.limitFilter now

/-- One limit input whose change completes at the instant `now` takes it. -/
def Channel.takeLimit (ch : Channel) (now : Nat) (input : LimitInput) : Channel :=
  if ch.limitCompletes input now then ch.setLimit input (ch.limit input).change else ch

/-- Both limit inputs take the changes that complete at the instant `now`. -/
def Channel.takeLimits (ch : Channel) (now : Nat) : Channel := (ch.takeLimit now .limp).takeLimit now .limn

/-- A channel's limit qualifiers after one more sample of their pins. -/
def Channel.sampleLimits (ch : Channel) (p : Inputs) (now : Nat) (c : Chan) : Channel :=
  { ch with
    limp := ch.limp.sample (ch.limitTarget .limp) (pinLevel Config.pullUp p.limp[c]) now
    limn := ch.limn.sample (ch.limitTarget .limn) (pinLevel Config.pullUp p.limn[c]) now }

/-! ### The capture inputs, ESTOP# and RST# -/

/-- A capture qualifier completes a change now (R108). -/
def State.captureCompletes (s : State) (i : CapIx) : Bool :=
  (s.caps[i]).completes (s.caps[i]).level s.capFilter[i] s.now

/-- The ESTOP qualifier completes a change now: low calls for asserted, high for negated (R163). -/
def State.estopCompletes (s : State) : Bool := s.estop.completes (!s.estop.level) Config.estopFilterUs s.now

/-- The RST# qualifier completes a change now: low calls for reset, high for its end (R172). -/
def State.rstCompletes (s : State) : Bool := s.rst.completes (!s.rst.level) Config.rstFilterUs s.now

/-! ### XSYNC -/

/-- The instant at which a run of high readings of XSYNC is 1 µs long (R89). -/
def xsyncDone (run : Option Nat) : Option Nat := run.map (· + usCycles Config.xsyncFilterUs)

/-- The XSYNC qualifier's run after one more sample of the wire at the instant `now` (R89, R177): idle while no slot is
SYNCING, started or carried on by a high reading, ended by a low one unless the run is 1 µs long at this very instant. -/
def sampleXsync (syncing high : Bool) (run : Option Nat) (now : Nat) : Option Nat :=
  if !syncing then none
  else if high then some (run.getD now)
  else if reached now (xsyncDone run) then run
  else none

end Sys2Proof.Machine
end

