-- ==== Sys2Proof/Machine/Due.lean ====
section
/-! DEFINITION. When each event of the part's own timing falls due, and how such an event is taken: at its instant, which the
part's own clock reaches one sampled cycle after the other (log entries 1 and 2). -/

namespace Sys2Proof.Machine

/-- The instant a channel's scheduled step falls due (R31, R44). -/
def dueStep (ch : Channel) : Option Nat :=
  match ch.state with
  | .running | .stopping => ch.pgn.schedule.map Sched.due
  | .disabled | .idle | .dwelling | .waiting | .held => none

/-- The instant a channel's SETTLE phase ends (R34). -/
def dueSettle (ch : Channel) : Option Nat :=
  if ch.state = .running ∧ ch.pgn.phase = .settle then ch.pgn.settleEnd else none

/-- The instant a channel's STEP pulse ends (R32). -/
def duePulse (ch : Channel) : Option Nat := ch.pgn.pulseEnd

/-- The instant the period of a head MOVE's last step runs out (R15, R44). -/
def dueSegmentEnd (ch : Channel) : Option Nat :=
  match ch.state with
  | .running | .stopping => if ch.pgn.remaining = 0 then ch.pgn.lastEnd else none
  | .disabled | .idle | .dwelling | .waiting | .held => none

/-- The instant the period of a step at Vs runs out under the stopping law, with steps of the head left over (R44). -/
def dueStopRest (ch : Channel) : Option Nat :=
  if ch.state = .stopping ∧ ch.pgn.remaining ≠ 0 then ch.pgn.lastEnd else none

/-- The instant a channel's DWELL timer expires (R16). -/
def dueDwell (ch : Channel) : Option Nat :=
  match ch.state, ch.queue, ch.dwellStart with
  | .dwelling, .dwell _ duration :: _, some start => some (start + usCycles duration)
  | _, _, _ => none

/-- The expiry instant of a GATHERING or SYNCING slot (R79, R83). -/
def dueExpiry (x : Option Slot) : Option Nat :=
  match x with
  | some sl => if sl.state = .opened then none else sl.expiry
  | none => none

/-- Part states in which the coalescing delay runs (R145). -/
def PartState.coalesces : PartState → Bool
  | .running | .draining | .failed => true
  | .off | .starting => false

/-- The instant the coalescing delay after the oldest unannounced write runs out (R145). -/
def dueCoalescing (s : State) : Option Nat :=
  match s.oldest, s.coalescing with
  | some first, some (_, delay) =>
    if s.part.coalesces ∧ s.unannounced ≠ 0 then some (first + usCycles delay) else none
  | _, _ => none

/-- An event due at an instant is taken once that instant has come; before it, and where no such event is due, the command
has no effect (log entry 2). -/
def atDue (due : Option Nat) (f : State → State) (s : State) : State := if reached s.now due then f s else s

end Sys2Proof.Machine
end

