-- ==== Sys2Proof/Machine/Motion.lean ====
section
/-! DEFINITION. The profile generator: resolving a MOVE (R12), the rate law (R35 to R41), the binding decision it asks
for (R20 to R23), the emission of a step (R31 to R33) and the stopping law (R43 to R45). -/

namespace Sys2Proof.Machine

/-! ### Resolution and start checks -/

/-- The end position, step count and direction of a MOVE from a start position, formed without wrap (R12). -/
def resolveMove (m : MoveEntry) (start : Int) : Resolved :=
  let distance : Int :=
    match m.mode with
    | .relative => m.amount.toInt
    | .absolute => m.amount.toInt - start
  { endPos := start + distance, steps := distance.natAbs, positive := decide (0 < distance) }

/-- The soft-limit check passes (R65). An end position outside the 32-bit range always fails (R12). -/
def softLimitOk (cfg : ChanConfig) (endPos : Int) : Bool :=
  decide (-2147483648 ≤ endPos) && decide (endPos ≤ 2147483647)
    && decide (cfg.softMin ≤ endPos) && decide (endPos ≤ cfg.softMax)

/-- The limit input in the direction of motion is enabled and qualified active (R67). -/
def limitBlocks (ch : Channel) (positive : Bool) : Bool :=
  if positive then ch.cfg.limpEnable && ch.limp.qualified else ch.cfg.limnEnable && ch.limn.qualified

/-! ### The rate law -/

/-- N(w): the steps needed to fall from w squared to Vt squared at 2B a step, rounded up (R37). -/
def stepsDown (wSq vtSq b : Nat) : Nat :=
  if vtSq < wSq then (wSq - vtSq + 2 * b - 1) / (2 * b) else 0

/-- The candidate rate squared of the next step (R36). -/
def candidateSq (vSq vcSq a b : Nat) : Nat :=
  if vSq < vcSq then min (vSq + 2 * a) vcSq
  else if vSq = vcSq then vcSq
  else max (vSq - 2 * b) vcSq

/-- The test of R37: with `remaining` steps left the segment may continue at the candidate. -/
def mayContinue (uSq vtSq b remaining : Nat) : Bool := decide (stepsDown uSq vtSq b ≤ remaining - 1)

/-- The rate squared of the next step under FINAL (R38), and under the stopping law with Vs for Vt (R44). -/
def fallSq (vSq floorSq b : Nat) : Nat := max (vSq - 2 * b) floorSq

/-- The phase of a segment that continues at u squared (R35, R36). -/
def phaseOf (uSq vcSq : Nat) : Phase :=
  if uSq < vcSq then .rampUp else if uSq = vcSq then .cruise else .rampDown

/-- The exit target in force (R20): the bound Vt, else the head's own Vs. -/
def exitTarget (binding : Binding) (m : MoveEntry) : Nat :=
  match binding with
  | .bound vt _ _ _ => vt
  | .notChained | .pending | .unbound | .closed => m.profile.vs

/-! ### Binding -/

/-- The candidate behind the head and its place in the queue: the first entry that is no MARK (R21). -/
def bindingCandidate : List Entry → Nat → Option (Entry × Nat)
  | [], _ => none
  | .mark _ _ _ :: rest, place => bindingCandidate rest (place + 1)
  | e :: _, place => some (e, place)

/-- The binding decision of R21 to R23 for a head `m` that resolves to `r`. -/
def decideBinding (ch : Channel) (m : MoveEntry) (r : Resolved) : Binding :=
  match bindingCandidate ch.queue.tail 1, m.exitRate with
  | some (.move c, place), some ve =>
    let t := resolveMove c r.endPos
    if t.steps ≠ 0 ∧ t.positive = r.positive ∧ softLimitOk ch.cfg t.endPos ∧ ¬limitBlocks ch t.positive
        ∧ max m.profile.vs c.profile.vs ≤ min ve c.profile.vc then
      .bound (min ve c.profile.vc) (max m.profile.vs c.profile.vs) place t
    else .unbound
  | _, _ => .unbound

/-- The binding record after a boundary whose candidate is u squared with `remaining` steps left: the decision is taken
at the binding point, once (R37, R39). -/
def bindingAt (ch : Channel) (m : MoveEntry) (uSq remaining : Nat) : Binding :=
  match ch.binding, ch.resolved with
  | .pending, some r =>
    if !mayContinue uSq (m.profile.vs ^ 2) m.profile.b remaining || remaining == 1 then decideBinding ch m r
    else .pending
  | b, _ => b

/-! ### Boundaries -/

/-- Boundary 0 of a MOVE whose entry rate squared is u squared (R35): the binding point may fall here (R39), and the
phase is fixed; the first step is taken at the entry rate whatever the test finds. -/
def boundaryZero (ch : Channel) (uSq : Nat) : Channel :=
  match ch.headMove? with
  | none => ch
  | some m =>
    let binding := bindingAt ch m uSq ch.pgn.remaining
    let vtSq := exitTarget binding m ^ 2
    let phase := if mayContinue uSq vtSq m.profile.b ch.pgn.remaining then phaseOf uSq (m.profile.vc ^ 2) else .final
    { ch with binding := binding, pgn := { ch.pgn with phase := phase, lastVtSq := vtSq } }

/-- A step scheduled one period of its own rate after the instant `now` (R31). -/
def Pgn.scheduleFrom (p : Pgn) (now rateSq : Nat) : Pgn :=
  { p with schedule := some { due := now + stepPeriod rateSq, rateSq := rateSq } }

/-- Boundary k, 1 and up, of a segment under the rate law, at the instant `now` at which step k was emitted (R36 to
R39). -/
def boundaryRate (ch : Channel) (m : MoveEntry) (now : Nat) : Channel :=
  let p := ch.pgn
  if p.phase = .final then
    let vtSq := exitTarget ch.binding m ^ 2
    { ch with pgn := { p.scheduleFrom now (fallSq p.rateSq vtSq m.profile.b) with lastVtSq := vtSq } }
  else
    let vcSq := m.profile.vc ^ 2
    let uSq := candidateSq p.rateSq vcSq m.profile.a m.profile.b
    let binding := bindingAt ch m uSq p.remaining
    let vtSq := exitTarget binding m ^ 2
    if mayContinue uSq vtSq m.profile.b p.remaining then
      { ch with binding := binding, pgn := { p.scheduleFrom now uSq with phase := phaseOf uSq vcSq, lastVtSq := vtSq } }
    else
      { ch with
        binding := binding
        pgn := { p.scheduleFrom now (fallSq p.rateSq vtSq m.profile.b) with phase := .final, lastVtSq := vtSq } }

/-- A boundary under the DECEL stopping law (R44): no step after one taken at Vs. -/
def boundaryStop (ch : Channel) (m : MoveEntry) (now : Nat) : Channel :=
  let p := ch.pgn
  let vsSq := m.profile.vs ^ 2
  if p.rateSq ≤ vsSq then { ch with pgn := { p with lastEnd := some (now + stepPeriod p.rateSq) } }
  else { ch with pgn := p.scheduleFrom now (fallSq p.rateSq vsSq m.profile.b) }

/-- What follows the emission of a step at the instant `now` (R31, R44): after the last step its period runs out, else
the boundary chooses the next step. -/
def afterStep (ch : Channel) (now : Nat) : Channel :=
  if ch.pgn.remaining = 0 then
    { ch with pgn := { ch.pgn with lastEnd := some (now + stepPeriod ch.pgn.rateSq) } }
  else
    match ch.headMove? with
    | none => ch
    | some m => if ch.pgn.stopMode = .decel then boundaryStop ch m now else boundaryRate ch m now

/-- The leading edge of a STEP pulse at the instant `now` (R32, R33): STEP rises for the pulse width, the position moves
by one in the direction DIR stands for, and the step is counted. -/
def stepEdge (ch : Channel) (now rateSq : Nat) : Channel :=
  let p := ch.pgn
  { ch with
    pgn := { p with
      rateSq := rateSq
      remaining := p.remaining - 1
      emitted := p.emitted + 1
      schedule := none
      position := if ch.positive then p.position + 1 else p.position - 1
      pulseEnd := some (now + usCycles ch.cfg.pulseWidth)
      stopHold := none
      lastStepAt := now } }

/-- A step of channel c is emitted now at the given rate squared, counted in the records made at this instant, and handed to
the watch unit (R33). -/
def emitStep (c : Chan) (rateSq : Nat) (s : State) : Act :=
  let ch := afterStep (stepEdge (s.chan c) s.now rateSq) s.now
  ((s.setChan c ch).showStep c ch.pgn.position, [.stepped c ch.pgn.position ch.positive])

/-- The instant until which the hold after an abrupt stop keeps the first step back (R45). -/
def holdUntil (ch : Channel) : Nat :=
  match ch.pgn.stopHold with
  | some t => t + usCycles ch.cfg.pulseWidth
  | none => 0

/-- The start of a segment at its boundary 0 (R31, R35): the first step is emitted at once, or scheduled for the end of
the hold of R45 (log entry 13). -/
def firstStep (c : Chan) (entrySq : Nat) (s : State) : Act :=
  let ch := boundaryZero (s.chan c) entrySq
  if s.now < holdUntil ch then
    (s.setChan c { ch with pgn := { ch.pgn with schedule := some { due := holdUntil ch, rateSq := entrySq } } }, [])
  else emitStep c entrySq (s.setChan c ch)

/-! ### Coming to rest -/

/-- The generator of a channel at rest (R42, R44, R45): no rate, no phase, no schedule, no stop mode. Position, DIR,
the pulse and the hold are kept. -/
def Pgn.atRest (p : Pgn) : Pgn :=
  { p with
    rateSq := 0
    phase := .none
    remaining := 0
    emitted := 0
    schedule := none
    stopMode := .none
    settleEnd := none
    lastEnd := none }

/-- The rate of the last step the head emitted, 0 if none (R10, R43). -/
def Pgn.lastRate (p : Pgn) : Nat := if p.emitted = 0 then 0 else isqrt p.rateSq

/-- The generator as its channel enters STOPPING (R43). A head that has emitted no step, in SETTLE or under the hold of
R45, has no schedule left and no period to wait for (log entry 13). -/
def Pgn.startStopping (p : Pgn) (prof : Profile) : Pgn :=
  let q := { p with stopMode := .decel, phase := .none, schedule := none, settleEnd := none, lastEnd := none }
  if p.emitted = 0 then q
  else if p.remaining = 0 ∨ p.rateSq ≤ prof.vs ^ 2 then
    { q with lastEnd := some (p.lastStepAt + stepPeriod p.rateSq) }
  else q.scheduleFrom p.lastStepAt (fallSq p.rateSq (prof.vs ^ 2) prof.b)

/-- The generator as an abrupt stop is ordered (R45): with STEP low it is at rest at once and the hold counts from the
last fall of STEP; with STEP high the pulse runs on. -/
def Pgn.abruptStop (p : Pgn) : Pgn :=
  match p.pulseEnd with
  | none => { p.atRest with stopHold := p.fell }
  | some _ =>
    { p with stopMode := .abrupt, phase := .none, schedule := none, settleEnd := none, lastEnd := none }

end Sys2Proof.Machine
end

