-- ==== Sys2Proof/Machine/Halts.lean ====
section
/-! DEFINITION. Halting a channel (R53 to R57): the one mechanism that every cause of a halt order meets, with the flush
of the queue and the completion of the head. -/

namespace Sys2Proof.Machine

/-- The completion of an entry of channel c removed by a flush from behind the head, which shows the position at the instant
of the flush (R10, R33, R55); a MARKER has none (R11). -/
def cancelled? (s : State) (c : Chan) (e : Entry) : Option Cpl :=
  let record (kind : ReqKind) (tag auxA : Word) : Cpl :=
    (s.entryDone c kind tag .cancelled .clear auxA 0).showing s c
  match e with
  | .move m => some (record .move m.tag 0)
  | .dwell tag _ => some (record .dwell tag 0)
  | .setPosition tag _ => some (record .setPosition tag (s.position c))
  | .mark tag _ _ => some (record .mark tag (auxMask s.aux))
  | .marker _ => none

/-- The report to the rendezvous unit of an entry of channel c removed by a flush: a withdrawal for a MARKER (R11). -/
def withdrawn? (c : Chan) (e : Entry) : Option Signal :=
  match e with
  | .marker slot => some (.withdraw c slot)
  | .move _ | .dwell _ _ | .setPosition _ _ | .mark _ _ _ => none

/-- An entry removed by a flush from behind the head (R10, R11, R55). -/
def flushEntry (c : Chan) (e : Entry) (s : State) : Act :=
  match cancelled? s c e with
  | some r => (s.post r, (withdrawn? c e).toList)
  | none => (s, (withdrawn? c e).toList)

/-- The entries behind the head removed in queue order (R55). -/
def flushBehind (c : Chan) (behind : List Entry) (s : State) : Act := eachAct behind (flushEntry c) s

/-- The binding record of a halted head (R26). -/
def Binding.onHalt : Binding → Binding
  | .pending => .closed
  | .bound _ _ _ _ => .closed
  | .unbound => .unbound
  | .closed => .closed
  | .notChained => .notChained

/-- The flags of a halted head MOVE (R57): SHORT is clear. -/
def haltFlags (ch : Channel) (m : MoveEntry) : Flags where
  unbound := ch.binding == .unbound
  short := false
  overridden := m.overridden
  watchHalt := ch.watchHalt

/-- The completion of a halted head MOVE, but for its position and timestamp (R57). -/
def haltedMove (ch : Channel) (m : MoveEntry) (byLimit : Bool) : Kept where
  tag := m.tag
  status := if byLimit then .limit else if ch.pgn.remaining = 0 then .ok else .halted
  flags := haltFlags ch m
  steps := auxNat ch.pgn.emitted
  rate := auxNat ch.pgn.lastRate

/-- A head MOVE's completion handed over, with the channel's position and the clock now (R56, R57). -/
def postKept (c : Chan) (k : Kept) (s : State) : State :=
  s.post (s.entryDone c .move k.tag k.status k.flags k.steps k.rate)

/-- Channel c enters HELD (R56): the queue closes and every entry leaves it, those behind the head first, then the
head. A head MOVE is stopped abruptly (R45), and its completion is kept back while STEP is high. -/
def enterHeld (c : Chan) (byLimit : Bool) (s : State) : Act :=
  let ch := s.chan c
  let emptied : Channel :=
    { ch with
      state := .held, queue := [], resolved := none, binding := .notChained, watchHalt := false, dwellStart := none }
  match ch.queue with
  | [] => (s.setChan c emptied, [])
  | head :: behind =>
    match head with
    | .move m =>
      let k := haltedMove ch m byLimit
      let kept := if ch.pgn.pulseEnd.isSome then some k else none
      let a := flushBehind c behind (s.setChan c { emptied with pgn := ch.pgn.abruptStop, kept := kept })
      (if ch.pgn.pulseEnd.isSome then a.1 else postKept c k a.1, a.2)
    | .dwell tag _ =>
      let dwelt := (s.now - ch.dwellStart.getD s.now) / Config.cyclesPerUs
      let a := flushBehind c behind (s.setChan c emptied)
      (a.1.post (a.1.entryDone c .dwell tag .halted { Flags.clear with watchHalt := ch.watchHalt } (auxNat dwelt) 0), a.2)
    | .marker slot =>
      let a := flushBehind c behind (s.setChan c emptied)
      (a.1, a.2 ++ [.withdraw c slot])
    | .setPosition _ _ | .mark _ _ _ =>
      (flushBehind c (head :: behind) (s.setChan c emptied))

/-- A STOPPING channel comes to rest under the stopping law (R44, R55): it enters HELD, and its head leaves the queue
and completes (R57). -/
def stopAtRest (c : Chan) (s : State) : State :=
  let ch := s.chan c
  let s' := s.setChan c
    { ch with
      state := .held, queue := [], resolved := none, binding := .notChained, watchHalt := false, pgn := ch.pgn.atRest }
  match ch.headMove? with
  | some m => postKept c (haltedMove ch m false) s'
  | none => s'

/-- A RUNNING channel enters STOPPING (R55): the queue closes, the entries behind the head leave, the binding record
changes (R26) and the stopping law begins (R43). A head with no step emitted is at rest at that instant. -/
def enterStopping (c : Chan) (s : State) : Act :=
  let ch := s.chan c
  match ch.headMove? with
  | none => (s, [])
  | some m =>
    let ch' : Channel :=
      { ch with
        state := .stopping
        queue := ch.queue.take 1
        binding := ch.binding.onHalt
        pgn := ch.pgn.startStopping m.profile }
    let a := flushBehind c ch.queue.tail (s.setChan c ch')
    (if ch.pgn.emitted = 0 then stopAtRest c a.1 else a.1, a.2)

/-- The head of a channel is marked as reached by a watch's halt order (R57). -/
def markWatchHalt (c : Chan) (byWatch : Bool) (s : State) : State :=
  if byWatch then s.modChan c fun ch => { ch with watchHalt := true } else s

/-- A halt order of mode DECEL or ABRUPT acts on channel c according to its state (R53). `byWatch` says that a watch
action gave it (R57). -/
def haltOrder (c : Chan) (mode : StopMode) (byWatch : Bool) (s : State) : Act :=
  match (s.chan c).state with
  | .disabled | .held => (s, [])
  | .idle => enterHeld c false s
  | .dwelling | .waiting => enterHeld c false (markWatchHalt c byWatch s)
  | .running =>
    if mode = .abrupt then enterHeld c false (markWatchHalt c byWatch s)
    else enterStopping c (markWatchHalt c byWatch s)
  | .stopping =>
    if mode = .abrupt then enterHeld c false (markWatchHalt c byWatch s)
    else (markWatchHalt c byWatch s, [])

/-- The same halt order for each channel a mask names, lowest first. -/
def haltMask (m : Mask) (mode : StopMode) (byWatch : Bool) (s : State) : Act :=
  eachAct (chansOf m) (fun c => haltOrder c mode byWatch) s

end Sys2Proof.Machine
end

