-- ==== Sys2Proof/Machine/Queues.lean ====
section
/-! DEFINITION. The segment queue at its head (R9 to R19): what each entry kind does when it reaches the head of a channel
at rest, the start of a MOVE (R13, R14), and the bound hand-over (R24). -/

namespace Sys2Proof.Machine

/-! ### Watches meet a SET_POSITION, and re-arm at steps -/

/-- The magnitude of a position minus P, formed without wrap (R101). -/
def distanceFrom (p position : Word) : Nat := (position.toInt - p.toInt).natAbs

/-- A COOLING watch on channel c that now stands at least H from its P (R101). -/
def rearms (w : Watch) (c : Chan) (position : Word) : Bool :=
  match w.cond with
  | .position p _ (some h) => w.state == .cooling && w.channel == c && decide (h ≤ distanceFrom p position)
  | .position _ _ none | .edge _ _ _ => false

/-- Watch i tested for re-arming (R101, R102). -/
def rearmOne (c : Chan) (position : Word) (s : State) (i : WatchIx) : State :=
  match s.watches[i] with
  | some w => if rearms w c position then s.setWatch i (some { w with state := .armed }) else s
  | none => s

/-- Every COOLING watch on channel c tested against a new position, where watches are evaluated (R98, R101, R102). -/
def rearmCooling (c : Chan) (position : Word) (s : State) : State :=
  if s.part.evaluatesWatches then allWatches.foldl (rearmOne c position) s else s

/-! ### Entries that take no time -/

/-- A SET_POSITION executes at the head (R17, R102). -/
def runSetPosition (c : Chan) (tag value : Word) (s : State) : State :=
  let old := s.position c
  let s1 := s.modChan c fun ch => { ch with pgn := { ch.pgn with position := value } }
  let s2 := rearmCooling c value s1
  s2.post (s2.entryDone c .setPosition tag .ok .clear old 0)

/-- A MARK executes at the head (R18). -/
def runMark (c : Chan) (tag : Word) (set clear : Mask) (s : State) : State :=
  let s1 := { s with aux := auxWrite s.aux set clear }
  s1.post (s1.entryDone c .mark tag .ok .clear (auxMask s1.aux) 0)

/-- A MOVE that resolves to zero distance completes at once with no steps and flags clear (R13, first step). -/
def runZeroMove (c : Chan) (m : MoveEntry) (s : State) : State :=
  s.post (s.entryDone c .move m.tag .ok .clear 0 0)

/-! ### The start of a MOVE from rest -/

/-- A MOVE fails a start check (R14): the channel goes to HELD, the entries behind leave, and the MOVE completes with
RANGE or LIMIT. -/
def failStart (c : Chan) (m : MoveEntry) (status : Status) (behind : List Entry) (s : State) : Act :=
  let s1 := s.modChan c fun ch =>
    { ch with state := .held, queue := [], resolved := none, binding := .notChained, watchHalt := false }
  let a := flushBehind c behind s1
  (a.1.post (a.1.entryDone c .move m.tag status .clear 0 0), a.2)

/-- The DIR level that a direction calls for (R34). -/
def dirLevelFor (pol : DirPolarity) (positive : Bool) : Bool := dirPositive pol positive

/-- A MOVE that passed its start checks begins (R13, fourth to sixth step): RUNNING, the binding record set up (R20),
then SETTLE, or the first step. -/
def beginMove (c : Chan) (m : MoveEntry) (r : Resolved) (behind : List Entry) (s : State) : Act :=
  let ch := s.chan c
  let level := dirLevelFor ch.cfg.dirPolarity r.positive
  let pgn := { ch.pgn.atRest with remaining := r.steps, dirHigh := level }
  let started : Channel :=
    { ch with
      state := .running
      queue := .move m :: behind
      resolved := some r
      binding := if m.exitRate.isSome then .pending else .notChained
      watchHalt := false
      pgn := pgn }
  if ch.pgn.dirHigh = level then firstStep c (m.profile.vs ^ 2) (s.setChan c started)
  else
    (s.setChan c
      { started with
        pgn := { pgn with phase := .settle, settleEnd := some (s.now + usCycles ch.cfg.dirSettle) } }, [])

/-- A MOVE with steps to emit reaches the head of a channel at rest: its start checks (R13, second and third step). -/
def startMove (c : Chan) (m : MoveEntry) (r : Resolved) (behind : List Entry) (s : State) : Act :=
  if !softLimitOk (s.chan c).cfg r.endPos then failStart c m .range behind s
  else if limitBlocks (s.chan c) r.positive then failStart c m .limit behind s
  else beginMove c m r behind s

/-! ### The head of a channel at rest -/

/-- The channel has no entry left and becomes IDLE (R9). -/
def goIdle (ch : Channel) : Channel :=
  { ch with state := .idle, queue := [], resolved := none, binding := .notChained, watchHalt := false }

/-- The entries of a channel at rest executed from the head on (R9): those that take no time one after another, until
one takes time or none is left. -/
def runHead (c : Chan) : List Entry → State → Act
  | [], s => (s.modChan c goIdle, [])
  | .setPosition tag value :: rest, s => runHead c rest (runSetPosition c tag value s)
  | .mark tag set clear :: rest, s => runHead c rest (runMark c tag set clear s)
  | .move m :: rest, s =>
    let r := resolveMove m (s.position c).toInt
    if r.steps = 0 then runHead c rest (runZeroMove c m s) else startMove c m r rest s
  | .dwell tag duration :: rest, s =>
    (s.modChan c fun ch =>
      { goIdle ch with state := .dwelling, queue := .dwell tag duration :: rest, dwellStart := some s.now }, [])
  | .marker slot :: rest, s =>
    (s.modChan c fun ch => { goIdle ch with state := .waiting, queue := .marker slot :: rest },
      [.arrive c slot])

/-- An entry admitted at the tail of channel c's open queue (R5): on an IDLE channel it becomes the head at once. -/
def appendEntry (c : Chan) (e : Entry) (s : State) : Act :=
  let ch := s.chan c
  if ch.state = .idle then runHead c (ch.queue ++ [e]) s
  else (s.setChan c { ch with queue := ch.queue ++ [e] }, [])

/-! ### The end of a segment -/

/-- The flags of a head MOVE at its segment end (R15, R24, R41). -/
def endFlags (ch : Channel) (m : MoveEntry) : Flags where
  unbound := ch.binding == .unbound
  short := decide (ch.pgn.lastVtSq < ch.pgn.rateSq)
  overridden := m.overridden
  watchHalt := ch.watchHalt

/-- The completion OK of a head MOVE at its segment end (R15, R24). -/
def postSegment (c : Chan) (m : MoveEntry) (s : State) : State :=
  let ch := s.chan c
  s.post (s.entryDone c .move m.tag .ok (endFlags ch m) (auxNat ch.pgn.emitted) (auxNat ch.pgn.lastRate))

/-- The MARKs between a bound head and its successor applied in queue order (R24, second step). -/
def runMarks (c : Chan) (marks : List Entry) (s : State) : State :=
  marks.foldl (fun s e =>
    match e with
    | .mark tag set clear => runMark c tag set clear s
    | .move _ | .dwell _ _ | .setPosition _ _ | .marker _ => s) s

/-- The bound successor takes the head and emits its first step (R24, third and fourth step; R42). -/
def takeUpSuccessor (c : Chan) (m : MoveEntry) (r : Resolved) (behind : List Entry) (s : State) : Act :=
  let ch := s.chan c
  let entrySq := max ch.pgn.rateSq (m.profile.vs ^ 2)
  firstStep c entrySq (s.setChan c
    { ch with
      queue := .move m :: behind
      resolved := some r
      binding := if m.exitRate.isSome then .pending else .notChained
      watchHalt := false
      pgn := { ch.pgn with remaining := r.steps, emitted := 0, schedule := none, lastEnd := none } })

/-- The segment end of a RUNNING channel's head MOVE (R15, R24). -/
def endSegment (c : Chan) (m : MoveEntry) (s : State) : Act :=
  let ch := s.chan c
  let rest := ch.queue.tail
  let s1 := postSegment c m s
  match ch.binding, rest.drop (match ch.binding with | .bound _ _ place _ => place - 1 | _ => 0) with
  | .bound _ _ place successor, .move next :: behind =>
    takeUpSuccessor c next successor behind (runMarks c (rest.take (place - 1)) s1)
  | _, _ => runHead c rest (s1.modChan c fun ch => { ch with pgn := ch.pgn.atRest })

end Sys2Proof.Machine
end

