-- ==== Sys2Proof/Machine/Rendezvous.lean ====
section
/-! DEFINITION. The rendezvous unit (R72 to R89): arrival, release and failure of a slot, and the XSYNC driver and
qualifier. -/

namespace Sys2Proof.Machine

/-- The RENDEZVOUS completion of a slot (R80, R82): channel c and where it stands now (R33), slot number, arrived set. -/
def slotDone (s : State) (i : SlotIx) (sl : Slot) (status : Status) (c : Chan) : Cpl :=
  (s.done .main ReqKind.rendezvous.code sl.tag status .clear (chanByte c) (s.position c) (auxNat i.val)
    (auxMask sl.arrived)).showing s c

/-- A slot becomes FREE and leaves the open list, and the part stops driving and watching XSYNC for it (R80, R82,
R88). -/
def freeSlot (i : SlotIx) (sl : Slot) (s : State) : State :=
  { s.setSlot i none with
    openList := s.openList.erase i
    xsyncLow := if sl.external then false else s.xsyncLow
    xsyncRun := if sl.external then none else s.xsyncRun }

/-- The mode of the halt orders a failed slot gives: ABRUPT when it is ABORTED, else DECEL (R82). -/
def failureMode (status : Status) : StopMode := if status = .aborted then .abrupt else .decel

/-- A slot fails (R82): it becomes FREE, the RENDEZVOUS completes, and every member but the withdrawn one receives a
halt order. Only MEMBER_LOST reports the withdrawn member. DESIGN CHOICE (log entry 5): R91 lets a member's CSQ take the end of
its head before the halt order of a failure of that instant; in the model the orders are taken within the failure, before any
other event. -/
def failSlot (i : SlotIx) (status : Status) (withdrawn : Option Chan) (s : State) : Act :=
  match s.slots[i] with
  | none => (s, [])
  | some sl =>
    let reported :=
      match status, withdrawn with
      | .memberLost, some c => c
      | _, _ => lowestChan sl.members
    let s1 := freeSlot i sl s
    let s2 := s1.post (slotDone s1 i sl status reported)
    eachAct ((chansOf sl.members).filter fun c => some c ≠ withdrawn)
      (fun c => haltOrder c (failureMode status) false) s2

/-- Channel c waits at its MARKER of slot i (R78). -/
def waitsAt (s : State) (i : SlotIx) (c : Chan) : Bool :=
  (s.chan c).state == .waiting &&
    match (s.chan c).queue with
    | .marker j :: _ => j == i
    | _ => false

/-- A slot is released (R80, R81): it becomes FREE, every member leaves its MARKER and starts its next entry, and the
RENDEZVOUS completes OK. Its position includes a first step that the lowest member emits at the release instant (R33, log
entry 22). -/
def releaseSlot (i : SlotIx) (s : State) : Act :=
  match s.slots[i] with
  | none => (s, [])
  | some sl =>
    let leaving := (chansOf sl.members).filter (waitsAt s i)
    let a := eachAct leaving (fun c s => runHead c (s.chan c).queue.tail s) (freeSlot i sl s)
    (a.1.post (slotDone a.1 i sl .ok (lowestChan sl.members)), a.2)

/-- The expiry instant set by a first arrival (R79); a timeout of 0 sets none (log entry 14). -/
def expiryFrom (sl : Slot) (now : Nat) : Option Nat :=
  if sl.timeout = 0 then none else some (now + usCycles (sl.timeout * 1000))

/-- A slot after an arrival of channel c that the RVU takes (R78, R79). -/
def Slot.arrive (sl : Slot) (c : Chan) (now : Nat) : Slot :=
  { sl with
    arrived := sl.arrived ||| chanBit c
    state := if sl.state = .opened then .gathering else sl.state
    expiry := if sl.state = .opened then expiryFrom sl now else sl.expiry }

/-- A complete EXTERNAL slot enters SYNCING (R89): XSYNC is released, and the qualifier starts if the wire then reads
high. -/
def enterSyncing (i : SlotIx) (sl : Slot) (s : State) : State :=
  { s.setSlot i (some { sl with state := .syncing }) with
    xsyncLow := false
    xsyncRun := if s.xsync then some s.now else none }

/-- The RVU is told that channel c has arrived at slot i (R78). -/
def takeArrival (c : Chan) (i : SlotIx) (s : State) : Act :=
  match s.slots[i] with
  | none => (s, [])
  | some sl =>
    if hasChan sl.members c && !hasChan sl.arrived c then
      let sl' := sl.arrive c s.now
      if sl'.arrived = sl'.members then
        if sl'.external then (enterSyncing i sl' s, [])
        else releaseSlot i (s.setSlot i (some sl'))
      else (s.setSlot i (some sl'), [])
    else (s, [])

/-- The status of a slot that fails by a withdrawal (R84). -/
def withdrawalStatus (s : State) : Status :=
  if s.estopLatch then .aborted
  else
    match s.part with
    | .draining | .failed => .cancelled
    | .off | .starting | .running => .memberLost

/-- The RVU is told that channel c has been withdrawn from slot i (R84). -/
def takeWithdrawal (c : Chan) (i : SlotIx) (s : State) : Act :=
  match s.slots[i] with
  | none => (s, [])
  | some sl => if hasChan sl.members c then failSlot i (withdrawalStatus s) (some c) s else (s, [])

/-- Every open slot fails with one status, in the order of the open list (R85, R86). -/
def failAllSlots (status : Status) (s : State) : Act :=
  eachAct s.openList (fun i => failSlot i status none) s

/-- The lowest-numbered FREE slot (R77). -/
def freeSlot? (s : State) : Option SlotIx := allSlots.find? fun i => (s.slots[i]).isNone

/-- An EXTERNAL slot is open (R76). -/
def externalOpen (s : State) : Bool :=
  s.openList.any fun i =>
    match s.slots[i] with
    | some sl => sl.external
    | none => false

/-- The SYNCING slot, if there is one; at most one slot is EXTERNAL (R88). -/
def syncingSlot? (s : State) : Option SlotIx :=
  s.openList.find? fun i =>
    match s.slots[i] with
    | some sl => sl.state == .syncing
    | none => false

end Sys2Proof.Machine
end

