-- ==== Sys2Proof/Machine/Watches.lean ====
section
/-! DEFINITION. The watch unit's firings (R98 to R107) and, with them, the settling of every signal that one step sends
between the blocks. -/

namespace Sys2Proof.Machine

/-- The sense of a POSITION watch agrees with a step's direction (R99). -/
def Sense.agrees (sense : Sense) (positive : Bool) : Bool :=
  match sense with
  | .up => positive
  | .down => !positive
  | .either => true

/-- The edge field of an EDGE watch agrees with a qualified edge (R100). -/
def Edge.agrees (edge : Edge) (rise : Bool) : Bool :=
  match edge with
  | .rise => rise
  | .fall => !rise
  | .both => true

/-- An ARMED POSITION watch that a step fires (R99). -/
def firesOnStep (w : Watch) (c : Chan) (position : Word) (positive : Bool) : Bool :=
  match w.cond with
  | .position p sense _ => w.state == .armed && w.channel == c && p == position && sense.agrees positive
  | .edge _ _ _ => false

/-- An ARMED EDGE watch that a qualified edge fires (R100). -/
def firesOnEdge (w : Watch) (input : CapIx) (rise : Bool) : Bool :=
  match w.cond with
  | .position _ _ _ => false
  | .edge i edge _ => w.state == .armed && i == input && edge.agrees rise

/-- The watches of the table that satisfy a test, lowest first. -/
def watchesWhere (s : State) (p : Watch → Bool) : List WatchIx :=
  allWatches.filter fun i =>
    match s.watches[i] with
    | some w => p w
    | none => false

/-- The state of a watch just after it fires (R101). -/
def WatchCond.firedState : WatchCond → WatchState
  | .position _ _ none => .spent
  | .position _ _ (some _) => .cooling
  | .edge _ _ false => .spent
  | .edge _ _ true => .armed

/-- A watch's write of the AUX latch (R103, second step): not taken while the ESTOP latch is set (R111). -/
def watchAux (w : Watch) (s : State) : State :=
  if s.estopLatch then s else { s with aux := auxWrite s.aux w.auxSet w.auxClear }

/-- The WATCH notice (R104); it shows the watch's channel at the instant of firing (R33, R100). -/
def watchNotice (s : State) (i : WatchIx) (w : Watch) (up : Bool) : Cpl :=
  (s.notice noticeWatch (auxNat i.val) (chanByte w.channel) (s.position w.channel) (watchAuxA w up)
    (auxMask s.aux)).showing s w.channel

/-- The ARM action on the watch it names (R106). -/
def armWatch (target : Option WatchIx) (s : State) : State :=
  match target with
  | none => s
  | some j =>
    match s.watches[j] with
    | some w => if w.state = .dormant then s.setWatch j (some { w with state := .armed }) else s
    | none => s

/-- Watch i fires and carries out its actions in the order of R103. `up` is a positive step or a rise. -/
def fireWatch (up : Bool) (i : WatchIx) (s : State) : Act :=
  match s.watches[i] with
  | none => (s, [])
  | some w =>
    let w' : Watch := { w with state := w.cond.firedState }
    let s1 := watchAux w' (s.setWatch i (some w'))
    let s2 := if w'.notify then s1.postNotice (watchNotice s1 i w' up) else s1
    let a := (haltMask w'.decel .decel true s2).andThen (haltMask w'.abrupt .abrupt true)
    (armWatch w'.arm a.1, a.2)

/-- The watch unit takes a step of channel c to a position (R98, R99, R101). The watches that fire are those that meet
the step as it found them, so a watch armed by a firing is not evaluated for it (R106). -/
def takeStep (c : Chan) (position : Word) (positive : Bool) (s : State) : Act :=
  if s.part.evaluatesWatches then
    eachAct (watchesWhere s fun w => firesOnStep w c position positive) (fireWatch positive) (rearmCooling c position s)
  else (s, [])

/-- The watch unit takes a qualified edge (R98, R100). -/
def takeEdge (input : CapIx) (rise : Bool) (s : State) : Act :=
  if s.part.evaluatesWatches then
    eachAct (watchesWhere s fun w => firesOnEdge w input rise) (fireWatch rise) s
  else (s, [])

/-! ### Settling the signals of one step -/

/-- One signal taken by the block it is for. -/
def takeSignal (sig : Signal) (s : State) : Act :=
  match sig with
  | .arrive c i => takeArrival c i s
  | .withdraw c i => takeWithdrawal c i s
  | .stepped c position positive => takeStep c position positive s

/-- Rounds of signals, each round the signals the one before it sent, in order. A round that sends any comes from a slot
that became FREE or from a first step at such a release, so the rounds that send any are at most ten (log entry 26). -/
def settleRounds : Nat → List Signal → State → State
  | 0, _, s => s
  | n + 1, sigs, s =>
    match sigs with
    | [] => s
    | sig :: rest =>
      let a := eachAct (sig :: rest) takeSignal s
      settleRounds n a.2 a.1

/-- An action with every signal it sends taken. -/
def Act.settle (a : Act) : State := settleRounds 20 a.2 a.1

end Sys2Proof.Machine
end

