-- ==== Sys2Proof/Machine/Intake.lean ====
section
/-! DEFINITION. The request intake (R112 to R133): the checks every record meets, the judgment of the main record, the
credits, and the take of a record by the arbiter. -/

namespace Sys2Proof.Machine

/-! ### Credits and intake's own checks -/

/-- A credit is available to a ring (R123, R125). -/
def creditFor (s : State) (ring : Ring) : Bool :=
  let total := s.mainRing.credits + s.ctrlRing.credits
  match ring with
  | .main => decide (total < Config.creditTotal) && decide (s.mainRing.credits < Config.creditMain)
  | .ctrl => decide (total < Config.creditTotal)

/-- The kinds whose channel byte intake checks itself (R120, fourth check). -/
def ReqKind.queuedByChannel : ReqKind → Bool
  | .move | .dwell | .setPosition | .mark => true
  | .rendezvous | .setProfile | .fence | .nop | .halt | .resume | .overrideRate | .cancelRendezvous | .setWatch
  | .clearWatch | .setChannel | .query | .clearEstop => false

/-- The kind of a record; none for an unknown code (R120, first check). -/
def recReq? (r : Block) : Option ReqKind := reqKind? (recKind r).toNat

/-- The status of the first of intake's own checks that a record from a ring fails (R120). -/
def intakeRefusal (ring : Ring) (r : Block) : Option Status :=
  match recReq? r with
  | none => some .badKind
  | some k =>
    if !k.carriedBy ring then some .wrongRing
    else if !unusedZero k.fields r then some .badField
    else if k.queuedByChannel && decide (8 ≤ recChannel r) then some .badField
    else none

/-! ### The owner's checks of the queued kinds -/

/-- A refusal by an owning block: its status, the channel whose position its completion shows, if any, and its aux A (R122,
R142). -/
structure Declined where
  status : Status
  channel : Option Chan
  auxA : Word
  deriving DecidableEq, Repr

/-- A refusal whose owner's rule gives no channel, position or aux values (R122, R142; log entry 12). -/
def plainRefusal (status : Status) : Declined where
  status := status
  channel := none
  auxA := 0

/-- The refusal of a request for one channel whose queue is closed (R5); none while it is open. -/
def closedRefusal (s : State) (c : Chan) : Option Declined :=
  let ch := s.chan c
  if ch.isOpen then none
  else
    some {
      status := if ch.state = .disabled then .channelOff else .channelHeld
      channel := some c
      auxA := 0 }

/-- The MOVE entry a record describes; none where a field check of R7 fails. -/
def recMove? (s : State) (r : Block) : Option MoveEntry :=
  let ve := blockField r 16 4
  match moveMode? (blockByte r 8), index16? (blockByte r 10) with
  | some mode, some i =>
    match s.profiles[i] with
    | none => none
    | some prof =>
      if flagField (blockByte r 9)
          ∧ (blockByte r 9 = 1 → 1 ≤ ve ∧ ve ≤ Config.rateMax)
          ∧ (blockByte r 9 = 0 → ve = 0)
          ∧ prof.vc ≤ (s.chan (recChan r)).cfg.maxRate then
        some {
          tag := recTag r
          mode := mode
          amount := blockWord r 12
          exitRate := if blockByte r 9 = 1 then some ve else none
          profile := prof
          overridden := false }
      else none
  | _, _ => none

/-- The DWELL entry a record describes; none for a duration of 0 (R8). -/
def recDwell? (r : Block) : Option Entry :=
  if blockField r 8 3 = 0 then none else some (.dwell (recTag r) (blockField r 8 3))

/-- The MARK entry a record describes; none where the masks share a bit (R8). -/
def recMark? (r : Block) : Option Entry :=
  if recMask r 8 &&& recMask r 9 = 0 then some (.mark (recTag r) (recMask r 8) (recMask r 9)) else none

/-- The entry that a MOVE, DWELL, SET_POSITION or MARK record describes; none where a field check fails (R7, R8), and
for every other kind. -/
def recEntry? (k : ReqKind) (s : State) (r : Block) : Option Entry :=
  match k with
  | .move => (recMove? s r).map .move
  | .dwell => recDwell? r
  | .setPosition => some (.setPosition (recTag r) (blockWord r 8))
  | .mark => recMark? r
  | .rendezvous | .setProfile | .fence | .nop | .halt | .resume | .overrideRate | .cancelRendezvous | .setWatch
  | .clearWatch | .setChannel | .query | .clearEstop => none

/-- The fields of a RENDEZVOUS record pass (R74, first stage). -/
def rendezvousFieldsOk (r : Block) : Bool :=
  recMask r 8 != 0 && flagField (blockByte r 9) && decide (blockField r 12 4 ≤ 65535)

/-- The refusal of a RENDEZVOUS by its second stage (R75): some member's queue is closed. -/
def rendezvousClosed (s : State) (members : Mask) : Option Declined :=
  let closed := maskOf fun c => hasChan members c && !(s.chan c).isOpen
  if closed = 0 then none
  else
    let off := (chansOf closed).any fun c => (s.chan c).state == .disabled
    some {
      status := if off then .channelOff else .channelHeld
      channel := some (lowestChan closed)
      auxA := auxMask closed }

/-- The SET_PROFILE record's index and values pass (R28). -/
def recSetProfile? (r : Block) : Option (ProfIx × Profile) :=
  match index16? (blockByte r 8) with
  | some i => if (recProfile r).valid then some (i, recProfile r) else none
  | none => none

/-- The refusal of a main-ring kind by its owner's first two stages (R122). -/
def ownerRefusal (k : ReqKind) (s : State) (r : Block) : Option Declined :=
  match k with
  | .move | .dwell | .setPosition | .mark =>
    if (recEntry? k s r).isNone then some (plainRefusal .badField) else closedRefusal s (recChan r)
  | .rendezvous =>
    if !rendezvousFieldsOk r then some (plainRefusal .badField) else rendezvousClosed s (recMask r 8)
  | .setProfile => if (recSetProfile? r).isNone then some (plainRefusal .badField) else none
  | .fence | .nop | .halt | .resume | .overrideRate | .cancelRendezvous | .setWatch | .clearWatch | .setChannel
  | .query | .clearEstop => none

/-! ### The judgment of the main record -/

/-- Channel c's queue holds 8 entries (R6). -/
def queueFull (s : State) (c : Chan) : Bool := decide (Config.queueDepth ≤ (s.chan c).queue.length)

/-- The missing resource that holds a main record whose checks pass (R127, fifth to eighth condition). -/
def resourceStall (k : ReqKind) (s : State) (r : Block) : Option StallCause :=
  match k with
  | .fence => if s.mainRing.credits ≠ 0 then some .fence else none
  | .move | .dwell | .setPosition | .mark => if queueFull s (recChan r) then some .queue else none
  | .rendezvous =>
    if (chansOf (recMask r 8)).any (queueFull s) then some .queue
    else if (freeSlot? s).isNone then some .slot
    else if blockByte r 9 = 1 ∧ externalOpen s then some .external
    else none
  | .setProfile | .nop | .halt | .resume | .overrideRate | .cancelRendezvous | .setWatch | .clearWatch | .setChannel
  | .query | .clearEstop => none

/-- The judgment of the main record (R127): the stall cause, or none when the arbiter takes it. -/
def mainStall (s : State) (r : Block) : Option StallCause :=
  if !creditFor s .main then some .credits
  else if (intakeRefusal .main r).isSome then none
  else
    match recReq? r with
    | none => none
    | some k => if (ownerRefusal k s r).isSome then none else resourceStall k s r

/-- The record HOLDING in a ring's head buffer. -/
def heldRecord (s : State) (ring : Ring) : Option Block :=
  match (s.ring ring).buffer with
  | .holding r => some r
  | .empty | .fetching _ => none

/-- The control record the arbiter takes now (R123). -/
def ctrlTakeable (s : State) : Option Block :=
  if s.part = .running ∧ creditFor s .ctrl then heldRecord s .ctrl else none

/-- The record the arbiter takes now from a ring (R123): the control ring goes first, and the main record waits for
what its judgment finds missing. -/
def takeable (s : State) (ring : Ring) : Option Block :=
  match ring with
  | .ctrl => ctrlTakeable s
  | .main =>
    if s.part = .running ∧ (ctrlTakeable s).isNone then
      match heldRecord s .main with
      | some r => if (mainStall s r).isNone then some r else none
      | none => none
    else none

/-- The stall cause at the latest judgment (R127, R128): judged again after every command, but for a main record that
waits for a control record's take. -/
def rejudge (s : State) : State :=
  match heldRecord s .main with
  | none => { s with stall := .none }
  | some r =>
    if s.part ≠ .running then { s with stall := .none }
    else if (ctrlTakeable s).isSome then s
    else { s with stall := (mainStall s r).getD .none }

/-! ### Pending HALTs -/

/-- The channel is at rest in HELD or DISABLED (R60). -/
def restedHalted (ch : Channel) : Bool := (ch.state == .held || ch.state == .disabled) && ch.atRest

/-- The channels of a mask that are not at rest in HELD or DISABLED (R60). -/
def stillMoving (t : State) (m : Mask) : Mask := maskOf fun c => hasChan m c && !restedHalted (t.chan c)

/-- The completion of a HALT (R60). -/
def haltDone (s : State) (h : PendingHalt) : Cpl :=
  s.done .ctrl ReqKind.halt.code h.tag .ok .clear 0 0 (auxMask h.halted) (auxMask h.untouched)

/-- One pending HALT looked at: the channels now at rest leave its waiting mask, and it completes when none is left
(R60). -/
def sweepHalt (s : State) (h : PendingHalt) : State :=
  let waiting := stillMoving s h.waiting
  if waiting = 0 then s.post (haltDone s h) else { s with halts := s.halts ++ [{ h with waiting := waiting }] }

/-- Every pending HALT looked at (R60). DESIGN CHOICE (log entry 5): HALTs completed by the same instant may be handed over
in either order, and the model hands them over oldest first. -/
def sweepHalts (s : State) : State := s.halts.foldl sweepHalt { s with halts := [] }

/-! ### The interrupt request, and the end of every command -/

/-- The interrupt request follows the causes and INT_ENABLE, and a message is sent as it becomes asserted where
messages are enabled (R147). -/
def refreshIrq (s : State) : State :=
  let asserted := s.intCause != 0 && s.intEnable
  { s with
    irq := asserted
    messages := if asserted && !s.irq && s.msiEnabled then s.messages + 1 else s.messages }

/-- The function's legacy interrupt on the link, an output (R147): asserted with the request, where messages are not
enabled. -/
def State.legacyInterrupt (s : State) : Bool := s.irq && !s.msiEnabled

/-- What follows every command at its instant: pending HALTs whose channels are at rest complete (R60), the stalled
record is judged again (R128), and the interrupt request follows its causes (R147). -/
def finish (s : State) : State := refreshIrq (rejudge (sweepHalts s))

/-- The outcome of a command: a next state, always (log entry 19). While the pin holds the part in reset every other
command is ignored (R172, R182; log entry 16). -/
def outcome (s : State) (f : State → State) : Host.Outcome State Fault Refusal :=
  if s.inReset then .next s else .next (finish (f s))

/-! ### The take -/

/-- The arbiter takes the record at a ring's head (R123, steps 1 and 4): a credit is charged to the ring, the fetch
index advances and the buffer becomes EMPTY. -/
def consume (ring : Ring) (s : State) : State :=
  let r := s.ring ring
  s.setRing ring { r with credits := r.credits + 1, fetch := (r.fetch + 1) % placeSize r.place, buffer := .empty }

/-- The completion of a request that intake itself refuses (R121): the kind and tag as read, the slot and the ring. -/
def intakeDone (s : State) (ring : Ring) (slot : Nat) (r : Block) (status : Status) : Cpl :=
  s.done ring (recKind r) (recTag r) status .clear 0 0 (auxNat slot) (auxNat (ringCode ring))

/-- The completion of a request that shows where channel c stands as the request is taken (R33, R142). -/
def channelDone (s : State) (ring : Ring) (r : Block) (status : Status) (c : Chan) (auxA auxB : Word) : Cpl :=
  (s.done ring (recKind r) (recTag r) status .clear (chanByte c) (s.position c) auxA auxB).showing s c

/-- The completion of a request that its owner refuses (R122); channel 0 and position 0 where the rule gives none (R142). -/
def refusalDone (s : State) (ring : Ring) (r : Block) (x : Declined) : Cpl :=
  match x.channel with
  | some c => channelDone s ring r x.status c x.auxA 0
  | none => s.done ring (recKind r) (recTag r) x.status .clear 0 0 x.auxA 0

/-- A request refused by its owner (R122): its completion joins the posting queue at the take. -/
def refuse (ring : Ring) (r : Block) (x : Declined) (s : State) : State := s.post (refusalDone s ring r x)

/-- A completion OK of a request that completes at its admission and names no channel. -/
def okDone (s : State) (ring : Ring) (r : Block) (auxA auxB : Word) : Cpl :=
  s.done ring (recKind r) (recTag r) .ok .clear 0 0 auxA auxB

/-- The arbiter takes the record of the given kind from a ring, if that is what it takes now (R123): intake's own
checks first (R120, R121), then `accept`, the owner's part, which is given the slot the record was taken from. A record
that cannot be taken now stays where it is (R127, log entry 9). -/
def takeKind (kind : Option ReqKind) (ring : Ring) (accept : Block → Nat → State → State) (s : State) : State :=
  match takeable s ring with
  | none => s
  | some r =>
    if recReq? r = kind then
      let slot := (s.ring ring).fetch
      let s1 := consume ring s
      match intakeRefusal ring r with
      | some status => s1.post (intakeDone s1 ring slot r status)
      | none => accept r slot s1
    else s

end Sys2Proof.Machine
end

