-- ==== Sys2Proof/Machine/ControlRequests.lean ====
section
/-! DEFINITION. The takes of the control-ring kinds: HALT, RESUME, OVERRIDE_RATE, CANCEL_RENDEZVOUS, SET_WATCH,
CLEAR_WATCH, SET_CHANNEL, QUERY and CLEAR_ESTOP. -/

namespace Sys2Proof.Machine

/-! ### HALT (R59, R60) -/

/-- The channels of a mask that a HALT finds IDLE, RUNNING, DWELLING, WAITING or STOPPING (R59). -/
def haltedMask (s : State) (m : Mask) : Mask :=
  maskOf fun c => hasChan m c && !((s.chan c).state == .held || (s.chan c).state == .disabled)

/-- The channels of a mask that a HALT finds HELD or DISABLED (R59). -/
def untouchedMask (s : State) (m : Mask) : Mask :=
  maskOf fun c => hasChan m c && ((s.chan c).state == .held || (s.chan c).state == .disabled)

/-- The owner's part of a HALT: a halt order to every named channel, and a pending-halt element waiting on those not yet
at rest, which completes at once when there are none (R59, R60). -/
def admitHalt (r : Block) (s : State) : State :=
  match haltMode? (blockByte r 9) with
  | none => refuse .ctrl r (plainRefusal .badField) s
  | some mode =>
    let m := recMask r 8
    let s1 := (haltMask m mode false s).settle
    let h : PendingHalt := {
      tag := recTag r
      halted := haltedMask s m
      untouched := untouchedMask s m
      waiting := stillMoving s1 m }
    { s1 with halts := s1.halts ++ [h] }

/-- HALT (R59). -/
def execHalt (ring : Ring) (s : State) : Host.Outcome State Fault Refusal :=
  outcome s (takeKind (some .halt) ring fun r _ => admitHalt r)

/-! ### RESUME (R61) -/

/-- A channel that RESUME makes IDLE: HELD and at rest (R61). -/
def resumable (ch : Channel) : Bool := ch.state == .held && ch.atRest

/-- Channel c made IDLE if it can be resumed (R61). -/
def resumeChan (s : State) (c : Chan) : State :=
  if resumable (s.chan c) then s.modChan c fun ch => { ch with state := .idle } else s

/-- The owner's part of a RESUME (R61). -/
def admitResume (r : Block) (s : State) : State :=
  if s.estopLatch then refuse .ctrl r (plainRefusal .estopLatched) s
  else
    let m := recMask r 8
    let resumed := maskOf fun c => hasChan m c && resumable (s.chan c)
    let s1 := (chansOf m).foldl resumeChan s
    s1.post (okDone s1 .ctrl r (auxMask resumed) 0)

/-- RESUME (R61). -/
def execResume (ring : Ring) (s : State) : Host.Outcome State Fault Refusal :=
  outcome s (takeKind (some .resume) ring fun r _ => admitResume r)

/-! ### OVERRIDE_RATE (R47 to R49) -/

/-- The Vc of the entry at a place of a queue, when it is a MOVE. -/
def placeVc? (queue : List Entry) (place : Nat) : Option Nat :=
  match queue[place]? with
  | some (.move m) => some m.profile.vc
  | _ => none

/-- The binding record after an accepted override: Vt re-capped to the greater of the bound minimum and the least of Ve,
the new Vc and the successor's Vc (R48). -/
def recap (b : Binding) (m : MoveEntry) (queue : List Entry) (vc : Nat) : Binding :=
  match b with
  | .bound vt minimum place t =>
    let cap := min (min (m.exitRate.getD vt) vc) ((placeVc? queue place).getD vt)
    .bound (max minimum cap) minimum place t
  | .notChained | .pending | .unbound | .closed => b

/-- A channel after an accepted override of its head MOVE (R48). -/
def overrideHead (ch : Channel) (m : MoveEntry) (vc : Nat) : Channel :=
  { ch with
    queue := .move { m with profile := { m.profile with vc := vc }, overridden := true } :: ch.queue.tail
    binding := recap ch.binding m ch.queue vc }

/-- The status of an OVERRIDE_RATE of channel c that is refused after its channel number passed (R47); none when it is
accepted. -/
def overrideRefusal (ch : Channel) (rate : Nat) : Option Status :=
  if rate < 1 ∨ Config.rateMax < rate then some .badField
  else if ch.state ≠ .running then some .notRunning
  else
    match ch.headMove? with
    | none => some .notRunning
    | some m =>
      if ch.pgn.phase = .final then some .tooLate
      else if rate < m.profile.vs ∨ ch.cfg.maxRate < rate then some .badField
      else none

/-- The owner's part of an OVERRIDE_RATE (R47 to R49): its completion shows the channel's position, but for a channel number
above 7. -/
def admitOverrideRate (r : Block) (s : State) : State :=
  let rate := blockField r 8 4
  let c := recChan r
  if 8 ≤ recChannel r then refuse .ctrl r (plainRefusal .badField) s
  else
    match overrideRefusal (s.chan c) rate, (s.chan c).headMove? with
    | none, some m =>
      let ch := overrideHead (s.chan c) m rate
      let s1 := s.setChan c ch
      s1.post (channelDone s1 .ctrl r .ok c (auxNat m.profile.vc) (auxNat (exitTarget ch.binding m)))
    | some status, _ => s.post (channelDone s .ctrl r status c 0 0)
    | none, none => s.post (channelDone s .ctrl r .notRunning c 0 0)

/-- OVERRIDE_RATE (R47). -/
def execOverrideRate (ring : Ring) (s : State) : Host.Outcome State Fault Refusal :=
  outcome s (takeKind (some .overrideRate) ring fun r _ => admitOverrideRate r)

/-! ### CANCEL_RENDEZVOUS (R87) -/

/-- The oldest open slot whose tag is the target (R87). -/
def slotByTag? (s : State) (target : Word) : Option SlotIx :=
  s.openList.find? fun i =>
    match s.slots[i] with
    | some sl => sl.tag == target
    | none => false

/-- The arrived set of a slot; empty for a FREE one. -/
def arrivedOf (s : State) (i : SlotIx) : Mask :=
  match s.slots[i] with
  | some sl => sl.arrived
  | none => 0

/-- The owner's part of a CANCEL_RENDEZVOUS (R87). -/
def admitCancelRendezvous (r : Block) (s : State) : State :=
  match slotByTag? s (blockWord r 8) with
  | some i =>
    let s1 := (failSlot i .cancelled none s).settle
    s1.post (okDone s1 .ctrl r (auxNat i.val) (auxMask (arrivedOf s i)))
  | none => refuse .ctrl r (plainRefusal .notFound) s

/-- CANCEL_RENDEZVOUS (R87). -/
def execCancelRendezvous (ring : Ring) (s : State) : Host.Outcome State Fault Refusal :=
  outcome s (takeKind (some .cancelRendezvous) ring fun r _ => admitCancelRendezvous r)

/-! ### SET_WATCH and CLEAR_WATCH (R95 to R97) -/

/-- The owner's part of a SET_WATCH (R95, R96). -/
def admitSetWatch (r : Block) (s : State) : State :=
  match recWatch? r with
  | none => refuse .ctrl r (plainRefusal .badField) s
  | some (i, w) =>
    (s.setWatch i (some w)).post
      (channelDone s .ctrl r .ok w.channel (auxNat i.val) (auxNat (watchCode (s.watches[i]))))

/-- SET_WATCH (R96). -/
def execSetWatch (ring : Ring) (s : State) : Host.Outcome State Fault Refusal :=
  outcome s (takeKind (some .setWatch) ring fun r _ => admitSetWatch r)

/-- The owner's part of a CLEAR_WATCH (R97). -/
def admitClearWatch (r : Block) (s : State) : State :=
  match index16? (blockByte r 8) with
  | none => refuse .ctrl r (plainRefusal .badField) s
  | some i => (s.setWatch i none).post (okDone s .ctrl r (auxNat i.val) (auxNat (watchCode (s.watches[i]))))

/-- CLEAR_WATCH (R97). -/
def execClearWatch (ring : Ring) (s : State) : Host.Outcome State Fault Refusal :=
  outcome s (takeKind (some .clearWatch) ring fun r _ => admitClearWatch r)

/-! ### SET_CHANNEL (R62 to R64) -/

/-- The channel state after an accepted SET_CHANNEL (R63). -/
def enabledState (found : ChanState) (enable latch : Bool) : ChanState :=
  if !enable then .disabled
  else if found = .disabled then (if latch then .held else .idle)
  else found

/-- A SET_CHANNEL is accepted in this channel (R62, second check): DISABLED, IDLE, or HELD and at rest. -/
def configurable (ch : Channel) : Bool :=
  ch.state == .disabled || ch.state == .idle || (ch.state == .held && ch.atRest)

/-- A limit qualifier as a SET_CHANNEL is accepted (R63, R64): under a new polarity it takes the state that its pin's level
names, without filtering; where the polarity stays, it is kept, with a change under qualification counted from its start
(log entry 27). -/
def repolarize (old new : LimitPolarity) (q : Qual) : Qual := if new = old then q else q.take (limitActive new q.level)

/-- A channel after an accepted SET_CHANNEL (R63, R64): the record replaced, the state changed, and the limit qualifiers
under the new polarity. -/
def configure (ch : Channel) (cfg : ChanConfig) (latch : Bool) : Channel :=
  { ch with
    cfg := cfg
    state := enabledState ch.state cfg.enable latch
    limp := repolarize ch.cfg.limitPolarity cfg.limitPolarity ch.limp
    limn := repolarize ch.cfg.limitPolarity cfg.limitPolarity ch.limn }

/-- The owner's part of a SET_CHANNEL (R62, R63). DESIGN CHOICE (log entry 12): R63 gives the completion the channel's
position and does not name its channel field; the model writes the named channel there. -/
def admitSetChannel (r : Block) (s : State) : State :=
  let c := recChan r
  if 8 ≤ recChannel r ∨ ¬recConfigCoded r ∨ ¬(recConfig r).valid then refuse .ctrl r (plainRefusal .badField) s
  else if !configurable (s.chan c) then refuse .ctrl r (plainRefusal .busy) s
  else
    let ch := configure (s.chan c) (recConfig r) s.estopLatch
    let s1 := s.setChan c ch
    s1.post (channelDone s1 .ctrl r .ok c (auxNat (s.chan c).state.code) (auxNat ch.state.code))

/-- SET_CHANNEL (R63). -/
def execSetChannel (ring : Ring) (s : State) : Host.Outcome State Fault Refusal :=
  outcome s (takeKind (some .setChannel) ring fun r _ => admitSetChannel r)

/-! ### QUERY (R70) and CLEAR_ESTOP (R166) -/

/-- The owner's part of a QUERY (R70, R180). -/
def admitQuery (r : Block) (s : State) : State :=
  let c := recChan r
  if 8 ≤ recChannel r then refuse .ctrl r (plainRefusal .badField) s
  else
    s.post (channelDone s .ctrl r .ok c (auxNat (s.chan c).rate) (queryAuxB (s.chan c) s.estopLatch))

/-- QUERY (R70). -/
def execQuery (ring : Ring) (s : State) : Host.Outcome State Fault Refusal :=
  outcome s (takeKind (some .query) ring fun r _ => admitQuery r)

/-- The owner's part of a CLEAR_ESTOP (R166). -/
def admitClearEstop (r : Block) (s : State) : State :=
  let latchBefore := auxNat (bitNat s.estopLatch)
  if s.estop.qualified then
    s.post (s.done .ctrl ReqKind.clearEstop.code (recTag r) .inputActive .clear 0 0 latchBefore 0)
  else
    { s with estopLatch := false }.post
      (s.done .ctrl ReqKind.clearEstop.code (recTag r) .ok .clear 0 0 latchBefore 0)

/-- CLEAR_ESTOP (R166). -/
def execClearEstop (ring : Ring) (s : State) : Host.Outcome State Fault Refusal :=
  outcome s (takeKind (some .clearEstop) ring fun r _ => admitClearEstop r)

end Sys2Proof.Machine
end

