-- ==== Sys2Proof/Machine/PartControl.lean ====
section
/-! DEFINITION. Part control (R151 to R169): the ESTOP assertion, the entries to RUNNING, DRAINING and FAILED, the setup's
failure, and the resets. -/

namespace Sys2Proof.Machine

/-! ### ESTOP (R164, R165) -/

/-- The mask of the channels that are not DISABLED (R143, R164). -/
def enabledMask (s : State) : Mask := maskOf fun c => (s.chan c).state != .disabled

/-- The safe pattern held, all lines low before any setup (R169). -/
def safePatternOf (s : State) : Mask := s.safePattern.getD 0

/-- An assertion acts in RUNNING or DRAINING with the latch clear, in the order of R164: latch, halts, slots, AUX latch,
notice. -/
def assertEstop (s : State) : State :=
  let m := enabledMask s
  let a := (haltMask m .abrupt false { s with estopLatch := true }).andThen (failAllSlots .aborted)
  let s1 := a.settle
  let s2 := { s1 with aux := safePatternOf s }
  s2.postNotice (s2.notice noticeEstop 0 0 0 (auxMask m) (auxMask (safePatternOf s)))

/-- An assertion in FAILED stops every channel that is still STOPPING at the end of its pulse (R165). -/
def assertEstopFailed (s : State) : State :=
  (haltMask (maskOf fun c => (s.chan c).state == .stopping) .abrupt false s).settle

/-- An assertion of the qualified input, by part state and latch (R164, R165). -/
def takeAssertion (s : State) : State :=
  match s.part with
  | .running | .draining => if s.estopLatch then s else assertEstop s
  | .failed => assertEstopFailed s
  | .off | .starting => s

/-! ### Intake stops (R132) -/

/-- A ring as intake stops: the record held or the fetch under way is dropped. -/
def stopRing (r : RequestRing) : RequestRing := { r with buffer := .empty }

/-- Intake stops in both rings (R132). -/
def stopIntake (s : State) : State :=
  { s with mainRing := stopRing s.mainRing, ctrlRing := stopRing s.ctrlRing, stall := .none }

/-! ### DRAINING and FAILED (R158, R161) -/

/-- The channels the drain halts: RUNNING, STOPPING, DWELLING and WAITING (R54, R158). -/
def drainMask (s : State) : Mask :=
  maskOf fun c =>
    match (s.chan c).state with
    | .running | .stopping | .dwelling | .waiting => true
    | .disabled | .idle | .held => false

/-- The part enters DRAINING (R158). -/
def enterDraining (s : State) : State :=
  let s1 := stopIntake { s with part := .draining }
  ((haltMask (drainMask s) .decel false s1).andThen (failAllSlots .cancelled)).settle

/-- The channels that entry to FAILED halts: those neither HELD nor DISABLED (R161). -/
def failedMask (s : State) : Mask :=
  maskOf fun c => !((s.chan c).state == .held || (s.chan c).state == .disabled)

/-- The part enters FAILED after a completion write fault (R148, R161). -/
def enterFailed (s : State) : State :=
  let s1 := stopIntake { s with part := .failed, faultCode := .completionWrite }
  ((haltMask (failedMask s) .decel false s1).andThen (failAllSlots .cancelled)).settle

/-! ### Setup (R154 to R156) -/

/-- The setup fails (R155): back to OFF with a fault code, and SETUP is set. -/
def setupFails (code : FaultCode) (s : State) : State :=
  { s with part := .off, setupRead := none, faultCode := code }.raise causeSetup

/-- The setup address in SETUP_LO and SETUP_HI (R153). -/
def setupAddress (s : State) : Nat := s.setupLo.toNat + 2 ^ 32 * s.setupHi.toNat

/-- The part enters STARTING (R152, R154): the address is checked, and the read begins. -/
def enterStarting (s : State) : State :=
  let s1 := { s with part := .starting, faultCode := .none }
  if setupAddress s % 64 = 0 then { s1 with setupRead := some (setupAddress s) }
  else setupFails .setupAddress s1

/-- A request ring at the entry to RUNNING (R132, R156). Credits are none held then (R125) and stay as they are. -/
def loadRing (r : RequestRing) (base log2 : Nat) : RequestRing :=
  { r with place := some { base := base, log2 := log2 }, post := 0, fetch := 0, buffer := .empty, suspended := false }

/-- Every block takes up its state for service (R156), with the initial pattern on AUX. -/
def loadSetup (b : Block) (s : State) : State :=
  { s with
    mainRing := loadRing s.mainRing (blockField b 0 8) (setupMainLog2 b)
    ctrlRing := loadRing s.ctrlRing (blockField b 8 8) (setupCtrlLog2 b)
    stall := .none
    cplPlace := some { base := blockField b 16 8, log2 := setupCplLog2 b }
    cplWrite := 0
    cplRetire := 0
    pass := true
    lost := 0
    coalescing := some (setupCount b, setupDelay b)
    unannounced := 0
    oldest := none
    caps := updateAll allCaps (fun _ q => q.take q.level) s.caps
    capFilter := updateAll allCaps (fun i _ => setupFilter b i) s.capFilter
    aux := if s.estopLatch || s.estop.qualified then setupSafe b else setupInitial b
    clock := 0
    clockPart := 0
    safePattern := some (setupSafe b)
    faultCode := .none
    setupRead := none
    part := .running }

/-- The part enters RUNNING (R156); an asserted ESTOP input with the latch clear acts at that instant (R165). -/
def enterRunning (b : Block) (s : State) : State :=
  let s1 := loadSetup b s
  if s1.estop.qualified then takeAssertion s1 else s1

/-! ### Resets (R168, R169) -/

/-- A limit qualifier as a reset ends: the raw input under ACTIVE_LOW (R66). -/
def resetLimit (q : Qual) : Qual := q.take (!q.level)

/-- A channel as a reset ends (R4, R29, R51, R52, R66). -/
def resetChannel (ch : Channel) : Channel := Channel.reset (resetLimit ch.limp) (resetLimit ch.limn)

/-- Every block at its reset values (R168): the sampled pin levels, the time and the model's outputs are not the part's to
reset, and the RST# qualifier runs on (R172). -/
def resetPart (s : State) : State :=
  { State.reset with
    pending := s.pending
    now := s.now
    choices := s.choices
    messages := s.messages
    msiEnabled := s.msiEnabled
    chans := updateAll allChans (fun _ ch => resetChannel ch) s.chans
    caps := updateAll allCaps (fun _ q => q.take q.level) s.caps
    xsync := s.xsync
    estop := s.estop.take (!s.estop.level)
    rst := s.rst }

/-- A soft reset (R168): as the others, but SETUP_LO, SETUP_HI and INT_ENABLE are kept. -/
def softResetPart (s : State) : State :=
  { resetPart s with setupLo := s.setupLo, setupHi := s.setupHi, intEnable := s.intEnable }

end Sys2Proof.Machine
end

