-- ==== Sys2Proof/Machine/MotionEvents.lean ====
section
/-! DEFINITION. The events of a channel's own timing, and the other timers: STEP_EMISSION, SETTLE_END, PULSE_END,
SEGMENT_END, STOP_REST, DWELL_EXPIRY, RENDEZVOUS_EXPIRY and COALESCING_DELAY_EXPIRY. -/

namespace Sys2Proof.Machine

/-- A scheduled step falls due (R31, R33, R44): it is emitted at its rate, and the next one is chosen. -/
def takeStepDue (c : Chan) (s : State) : State :=
  match (s.chan c).pgn.schedule with
  | some x => (emitStep c x.rateSq s).settle
  | none => s

/-- STEP_EMISSION (R31). -/
def execStepEmission (c : Chan) (s : State) : Host.Outcome State Fault Refusal :=
  outcome s (atDue (dueStep (s.chan c)) (takeStepDue c))

/-- The dir settle time runs out: boundary 0, with the first step at Vs (R34, R35). -/
def takeSettleEnd (c : Chan) (s : State) : State :=
  match (s.chan c).headMove? with
  | some m =>
    (firstStep c (m.profile.vs ^ 2)
      (s.modChan c fun ch => { ch with pgn := { ch.pgn with settleEnd := none } })).settle
  | none => s

/-- SETTLE_END (R34). -/
def execSettleEnd (c : Chan) (s : State) : Host.Outcome State Fault Refusal :=
  outcome s (atDue (dueSettle (s.chan c)) (takeSettleEnd c))

/-- The generator as STEP falls (R32); an abrupt stop ends here, and its hold counts from this instant (R45). -/
def Pgn.fall (p : Pgn) (now : Nat) : Pgn :=
  let q := { p with pulseEnd := none, fell := some now }
  if p.stopMode = .abrupt then { q.atRest with stopHold := some now } else q

/-- STEP falls (R32); a channel held abruptly comes to rest, and its head's completion kept back is handed over (R56). -/
def takePulseEnd (c : Chan) (s : State) : State :=
  let ch := s.chan c
  let s1 := s.setChan c { ch with kept := none, pgn := ch.pgn.fall s.now }
  match ch.kept with
  | some k => postKept c k s1
  | none => s1

/-- PULSE_END (R32). -/
def execPulseEnd (c : Chan) (s : State) : Host.Outcome State Fault Refusal :=
  outcome s (atDue (duePulse (s.chan c)) (takePulseEnd c))

/-- The limit changes that complete at the instant of an unbound head's segment end, taken as the channel comes to rest:
they do not act on it, and the start check of a MOVE behind the head meets them (R69). -/
def limitsAtRest (c : Chan) (s : State) : State :=
  if (s.chan c).headBound then s else s.modChan c fun ch => ch.takeLimits s.now

/-- The period of the head's last step runs out: the segment end (R15, R24), or, under the stopping law, rest (R44). -/
def takeSegmentEnd (c : Chan) (s : State) : State :=
  match (s.chan c).state, (s.chan c).headMove? with
  | .stopping, _ => stopAtRest c s
  | _, some m => (endSegment c m (limitsAtRest c s)).settle
  | _, none => s

/-- SEGMENT_END (R15). -/
def execSegmentEnd (c : Chan) (s : State) : Host.Outcome State Fault Refusal :=
  outcome s (atDue (dueSegmentEnd (s.chan c)) (takeSegmentEnd c))

/-- STOP_REST (R44): the period of a step at Vs runs out, and the STOPPING channel comes to rest in HELD (R55). -/
def execStopRest (c : Chan) (s : State) : Host.Outcome State Fault Refusal :=
  outcome s (atDue (dueStopRest (s.chan c)) (stopAtRest c))

/-- A DWELL's timer expires (R16): it completes with its full duration, and the next entry becomes the head. -/
def takeDwellExpiry (c : Chan) (s : State) : State :=
  match (s.chan c).queue with
  | .dwell tag duration :: rest =>
    let s1 := s.modChan c fun ch => { ch with dwellStart := none }
    (runHead c rest (s1.post (s1.entryDone c .dwell tag .ok .clear (auxNat duration) 0))).settle
  | _ => s

/-- DWELL_EXPIRY (R16). -/
def execDwellExpiry (c : Chan) (s : State) : Host.Outcome State Fault Refusal :=
  outcome s (atDue (dueDwell (s.chan c)) (takeDwellExpiry c))

/-- RENDEZVOUS_EXPIRY (R83): the slot fails with EXPIRED. -/
def execRendezvousExpiry (i : SlotIx) (s : State) : Host.Outcome State Fault Refusal :=
  outcome s (atDue (dueExpiry s.slots[i]) fun s => (failSlot i .expired none s).settle)

/-- CPL is set and the coalescing state cleared (R145). -/
def announce (s : State) : State := { s.raise causeCpl with unannounced := 0, oldest := none }

/-- COALESCING_DELAY_EXPIRY (R145). -/
def execCoalescingDelayExpiry (s : State) : Host.Outcome State Fault Refusal :=
  outcome s (atDue (dueCoalescing s) announce)

end Sys2Proof.Machine
end

