-- ==== Sys2Proof/Machine/DmaEvents.lean ====
section
/-! DEFINITION. The DMA operations of the link: fetches of request records (R117 to R119), completion writes (R136, R137,
R148), the setup read (R154 to R156), and the end of a drain (R159). -/

namespace Sys2Proof.Machine

/-! ### Fetches -/

/-- The conditions under which a fetch begins (R117). -/
def canFetch (s : State) (ring : Ring) : Bool :=
  let r := s.ring ring
  s.part == .running && r.buffer == .empty && !r.suspended && decide (1 ≤ r.posted)

/-- The host address of a ring's slot (R112). -/
def slotAddress (r : RequestRing) : Nat :=
  match r.place with
  | some p => p.base + 64 * r.fetch
  | none => 0

/-- A fetch begins (R117). -/
def beginFetch (ring : Ring) (s : State) : State :=
  let r := s.ring ring
  if canFetch s ring then s.setRing ring { r with buffer := .fetching (slotAddress r) } else s

/-- FETCH_BEGIN (R117). -/
def execFetchBegin (ring : Ring) (s : State) : Host.Outcome State Fault Refusal := outcome s (beginFetch ring)

/-- A fetch is under way in a ring. -/
def RequestRing.isFetching (r : RequestRing) : Bool :=
  match r.buffer with
  | .fetching _ => true
  | .empty | .holding _ => false

/-- The read of a ring's slot completes with data (R117); the data of a read that was dropped is discarded (R119). -/
def endFetch (ring : Ring) (read : DmaEnd) (data : Block) (s : State) : State :=
  let r := s.ring ring
  match read with
  | .live => if r.isFetching then s.setRing ring { r with buffer := .holding data } else s
  | .dropped => s

/-- FETCH_DONE (R117). -/
def execFetchDone (ring : Ring) (read : DmaEnd) (data : Block) (s : State) : Host.Outcome State Fault Refusal :=
  outcome s (endFetch ring read data)

/-- The INTAKE_FAULT notice (R118, R143). -/
def intakeFaultNotice (s : State) (ring : Ring) : Cpl :=
  s.notice noticeIntakeFault 0 0 0 (auxNat (s.ring ring).fetch) (auxNat (ringCode ring))

/-- The read of a ring's slot fails (R118). -/
def failFetch (ring : Ring) (read : DmaEnd) (s : State) : State :=
  let r := s.ring ring
  match read with
  | .live =>
    if r.isFetching then
      (s.setRing ring { r with buffer := .empty, suspended := true }).postNotice (intakeFaultNotice s ring)
    else s
  | .dropped => s

/-- FETCH_FAULT (R118). -/
def execFetchFault (ring : Ring) (read : DmaEnd) (s : State) : Host.Outcome State Fault Refusal :=
  outcome s (failFetch ring read)

/-! ### Completion writes -/

/-- The number of slots written and not yet retired (R135). -/
def State.unretired (s : State) : Nat :=
  (s.cplWrite + placeSize s.cplPlace - s.cplRetire) % placeSize s.cplPlace

/-- Part states in which completion records are written (R136, R149). -/
def PartState.writes : PartState → Bool
  | .running | .draining => true
  | .off | .starting | .failed => false

/-- The conditions under which a completion write begins (R136). -/
def canWrite (s : State) : Bool :=
  s.part.writes && s.writing.isNone && !s.posting.isEmpty && decide (s.unretired + 1 < placeSize s.cplPlace)

/-- The host address of the slot at the write index (R134). -/
def cplAddress (s : State) : Nat :=
  match s.cplPlace with
  | some p => p.base + 32 * s.cplWrite
  | none => 0

/-- A completion write begins (R136). -/
def beginWrite (s : State) : State := if canWrite s then { s with writing := some (cplAddress s) } else s

/-- The bytes that the completion write under way writes, lowest offset first: the head record with the current pass value
(R136, R180). -/
def State.writeBytes (s : State) : Option (List Byte) :=
  match s.writing, s.posting with
  | some _, r :: _ => some (r.bytes s.pass)
  | _, _ => none

/-- COMPLETION_WRITE_BEGIN (R136). -/
def execCompletionWriteBegin (s : State) : Host.Outcome State Fault Refusal := outcome s beginWrite

/-- A credit returns to the pool, counted off the ring it was charged to (R126); a notice held none. -/
def returnCredit (charged : Option Ring) (s : State) : State :=
  match charged with
  | some ring => s.setRing ring { s.ring ring with credits := (s.ring ring).credits - 1 }
  | none => s

/-- The write index advances, and the pass value toggles as it passes the end of the ring (R137). -/
def advanceWrite (s : State) : State :=
  if s.cplWrite + 1 < placeSize s.cplPlace then { s with cplWrite := s.cplWrite + 1 }
  else { s with cplWrite := 0, pass := !s.pass }

/-- The unannounced count that sets CPL at once: a count of 0 acts as 1, and a delay of 0 sets CPL at every write
(R145). -/
def announceAt (coalescing : Option (Nat × Nat)) : Nat :=
  match coalescing with
  | some (count, delay) => if delay = 0 then 1 else max count 1
  | none => 1

/-- A completed write counts toward CPL (R145). -/
def countWrite (s : State) : State :=
  let first := if s.unannounced = 0 then some s.now else s.oldest
  let s1 := { s with unannounced := s.unannounced + 1, oldest := first }
  if announceAt s.coalescing ≤ s1.unannounced then announce s1 else s1

/-- The notice kinds whose write sets URGENT (R146). -/
def urgentKind (r : Cpl) : Bool :=
  r.notice && (r.kind == noticeLimitKind || r.kind == noticeEstop || r.kind == noticeIntakeFault)

/-- What a completed write of the head record does, in the order of R137. -/
def recordWritten (r : Cpl) (rest : List Cpl) (s : State) : State :=
  let s1 := countWrite (returnCredit r.charged (advanceWrite { s with posting := rest, writing := none }))
  if urgentKind r then s1.raise causeUrgent else s1

/-- A completion write ends (R137); the end of a write that a reset discarded changes nothing (R168). -/
def endWrite (write : DmaEnd) (s : State) : State :=
  match write, s.writing, s.posting with
  | .live, some _, r :: rest => recordWritten r rest s
  | _, _, _ => s

/-- COMPLETION_WRITE_DONE (R137). -/
def execCompletionWriteDone (write : DmaEnd) (s : State) : Host.Outcome State Fault Refusal :=
  outcome s (endWrite write)

/-- A completion write fails (R148, R161). -/
def failWrite (write : DmaEnd) (s : State) : State :=
  match write, s.writing with
  | .live, some _ =>
    let s1 := { s with writing := none }.raise causeFault
    if s.part.writes then enterFailed s1 else s1
  | _, _ => s

/-- COMPLETION_WRITE_FAULT (R148). -/
def execCompletionWriteFault (write : DmaEnd) (s : State) : Host.Outcome State Fault Refusal :=
  outcome s (failWrite write)

/-! ### The setup read -/

/-- The setup read completes with data (R154 to R156); an abandoned read's data is discarded. -/
def endSetupRead (read : DmaEnd) (b : Block) (s : State) : State :=
  match read with
  | .live =>
    if s.part = .starting ∧ s.setupRead.isSome then
      match setupFault? b with
      | some code => setupFails code s
      | none => enterRunning b s
    else s
  | .dropped => s

/-- SETUP_READ_DONE (R155, R156). -/
def execSetupReadDone (read : DmaEnd) (b : Block) (s : State) : Host.Outcome State Fault Refusal :=
  outcome s (endSetupRead read b)

/-- The setup read fails (R154, R155). -/
def failSetupRead (read : DmaEnd) (s : State) : State :=
  match read with
  | .live => if s.part = .starting ∧ s.setupRead.isSome then setupFails .setupRead s else s
  | .dropped => s

/-- SETUP_READ_FAIL (R154). -/
def execSetupReadFail (read : DmaEnd) (s : State) : Host.Outcome State Fault Refusal :=
  outcome s (failSetupRead read)

/-! ### The end of a drain -/

/-- The drain condition (R159). -/
def drained (s : State) : Bool :=
  s.part == .draining && allChans.all (fun c => (s.chan c).atRest && (s.chan c).pgn.pulseEnd.isNone)
    && s.mainRing.credits == 0 && s.ctrlRing.credits == 0 && s.posting.isEmpty && s.writing.isNone

/-- The part leaves DRAINING for OFF (R159), and CPL is set for writes not yet announced (R145, log entry 15). -/
def completeDrain (s : State) : State :=
  if drained s then
    let s1 := { s with part := .off }
    if s.unannounced = 0 then s1 else announce s1
  else s

/-- DRAIN_COMPLETE (R159). -/
def execDrainComplete (s : State) : Host.Outcome State Fault Refusal := outcome s completeDrain

end Sys2Proof.Machine
end

