-- ==== Sys2Proof/Machine/MainRequests.lean ====
section
/-! DEFINITION. The takes of the main-ring kinds: MOVE, DWELL, SET_POSITION, MARK, RENDEZVOUS, SET_PROFILE, FENCE and NOP
(R5 to R8, R28, R74 to R77, R130, R131), and of a record with an unknown kind (R121). -/

namespace Sys2Proof.Machine

/-- A record of a kind that puts one entry into one queue (R5, R7, R8): refused, or appended and run. -/
def admitEntry (k : ReqKind) (r : Block) (s : State) : State :=
  match recEntry? k s r with
  | none => refuse .main r (plainRefusal .badField) s
  | some e =>
    match closedRefusal s (recChan r) with
    | some x => refuse .main r x s
    | none => (appendEntry (recChan r) e s).settle

/-- MOVE (R7): the entry with its profile snapshot, or a refusal. -/
def execMove (ring : Ring) (s : State) : Host.Outcome State Fault Refusal :=
  outcome s (takeKind (some .move) ring fun r _ => admitEntry .move r)

/-- DWELL (R8). -/
def execDwell (ring : Ring) (s : State) : Host.Outcome State Fault Refusal :=
  outcome s (takeKind (some .dwell) ring fun r _ => admitEntry .dwell r)

/-- SET_POSITION (R8). -/
def execSetPosition (ring : Ring) (s : State) : Host.Outcome State Fault Refusal :=
  outcome s (takeKind (some .setPosition) ring fun r _ => admitEntry .setPosition r)

/-- MARK (R8). -/
def execMark (ring : Ring) (s : State) : Host.Outcome State Fault Refusal :=
  outcome s (takeKind (some .mark) ring fun r _ => admitEntry .mark r)

/-- The slot a RENDEZVOUS record opens (R77). -/
def openedSlot (r : Block) : Slot where
  state := .opened
  tag := recTag r
  members := recMask r 8
  arrived := 0
  timeout := blockField r 12 4
  expiry := none
  external := blockByte r 9 == 1

/-- A slot allocated: it joins the tail of the open list, and an EXTERNAL one drives XSYNC low (R77, R88). -/
def openSlot (i : SlotIx) (sl : Slot) (s : State) : State :=
  { s.setSlot i (some sl) with
    openList := s.openList ++ [i]
    xsyncLow := s.xsyncLow || sl.external }

/-- The owner's part of a RENDEZVOUS (R74 to R77): refused, or admitted to the lowest FREE slot with a MARKER at the tail
of every member's queue. -/
def admitRendezvous (r : Block) (s : State) : State :=
  match ownerRefusal .rendezvous s r with
  | some x => refuse .main r x s
  | none =>
    match freeSlot? s with
    | none => s
    | some i =>
      (eachAct (chansOf (recMask r 8)) (fun c => appendEntry c (.marker i)) (openSlot i (openedSlot r) s)).settle

/-- RENDEZVOUS (R77). -/
def execRendezvous (ring : Ring) (s : State) : Host.Outcome State Fault Refusal :=
  outcome s (takeKind (some .rendezvous) ring fun r _ => admitRendezvous r)

/-- The owner's part of a SET_PROFILE (R28). -/
def admitSetProfile (r : Block) (s : State) : State :=
  match recSetProfile? r with
  | none => refuse .main r (plainRefusal .badField) s
  | some (i, p) =>
    (s.setProfile i (some p)).post
      (okDone s .main r (auxNat i.val) (auxNat (bitNat (s.profiles[i]).isSome)))

/-- SET_PROFILE (R28). -/
def execSetProfile (ring : Ring) (s : State) : Host.Outcome State Fault Refusal :=
  outcome s (takeKind (some .setProfile) ring fun r _ => admitSetProfile r)

/-- FENCE (R130): taken once no main-ring request holds a credit, it completes OK at that instant. -/
def execFence (ring : Ring) (s : State) : Host.Outcome State Fault Refusal :=
  outcome s (takeKind (some .fence) ring fun r _ s => s.post (okDone s .main r 0 0))

/-- NOP (R131): completes OK at its take with its slot index and its ring. -/
def execNop (ring : Ring) (s : State) : Host.Outcome State Fault Refusal :=
  outcome s (takeKind (some .nop) ring fun r slot s =>
    s.post (okDone s ring r (auxNat slot) (auxNat (ringCode ring))))

/-- A record whose kind field holds no request kind code (R121): taken, consumed and completed with BAD_KIND. Intake's own
first check refuses it, so the owner's part is never reached. -/
def execBadKindRecord (ring : Ring) (s : State) : Host.Outcome State Fault Refusal :=
  outcome s (takeKind none ring fun _ _ s => s)

end Sys2Proof.Machine
end

