-- ==== Sys2Proof/Machine/PinEvents.lean ====
section
/-! DEFINITION. The changes that the input qualifiers complete: ESTOP_ASSERTION, ESTOP_NEGATION, LIMIT_QUALIFIED_CHANGE,
QUALIFIED_EDGE and XSYNC_QUALIFIED. Each acts at the instant its qualifier completes that change, and has no effect at
another (log entry 6). -/

namespace Sys2Proof.Machine

/-- The ESTOP qualifier completes its change (R163). -/
def changeEstop (s : State) : State := { s with estop := s.estop.change }

/-- ESTOP_ASSERTION (R163 to R165). -/
def execEstopAssertion (s : State) : Host.Outcome State Fault Refusal :=
  outcome s fun s => if s.estopCompletes && !s.estop.qualified then takeAssertion (changeEstop s) else s

/-- ESTOP_NEGATION (R163): STAT shows the change, and nothing else acts. -/
def execEstopNegation (s : State) : Host.Outcome State Fault Refusal :=
  outcome s fun s => if s.estopCompletes && s.estop.qualified then changeEstop s else s

/-- The input lies in the positive direction. -/
def limitPositive : LimitInput → Bool
  | .limp => true
  | .limn => false

/-- The input's code in a LIMIT notice (R143). -/
def limitCode : LimitInput → Nat
  | .limp => 0
  | .limn => 1

/-- The channel is moving toward the input (R68). -/
def movingToward (ch : Channel) (input : LimitInput) : Bool :=
  (ch.state == .running || ch.state == .stopping) &&
    match ch.resolved with
    | some r => r.positive == limitPositive input
    | none => false

/-- The LIMIT notice (R68, R143). -/
def limitNotice (s : State) (c : Chan) (input : LimitInput) (m : MoveEntry) : Cpl :=
  s.notice noticeLimitKind 0 (chanByte c) (s.position c) (auxNat (limitCode input)) m.tag

/-- A limit input acts during motion (R68): the notice, then the abrupt stop, with the head to complete LIMIT. -/
def limitStop (c : Chan) (input : LimitInput) (m : MoveEntry) (s : State) : State :=
  (enterHeld c true (s.postNotice (limitNotice s c input m))).settle

/-- A limit qualifier completes its change, to active or to inactive (R66, R68). -/
def takeLimitChange (c : Chan) (input : LimitInput) (active : Bool) (s : State) : State :=
  let ch := s.chan c
  let s1 := s.setChan c (ch.setLimit input (ch.limit input).change)
  match ch.headMove? with
  | some m => if active && ch.limitEnabled input && movingToward ch input then limitStop c input m s1 else s1
  | none => s1

/-- LIMIT_QUALIFIED_CHANGE (R66, R68). -/
def execLimitQualifiedChange (c : Chan) (input : LimitInput) (active : Bool) (s : State) :
    Host.Outcome State Fault Refusal :=
  outcome s fun s =>
    let ch := s.chan c
    if ch.limitCompletes input s.now && (ch.limit input).qualified != active then takeLimitChange c input active s else s

/-- A capture qualifier completes its change (R108). -/
def changeCapture (input : CapIx) (s : State) : State := { s with caps := s.caps.set input (s.caps[input]).change }

/-- A qualified edge taken (R100, R108). -/
def takeQualifiedEdge (input : CapIx) (rise : Bool) (s : State) : State :=
  (takeEdge input rise (changeCapture input s)).settle

/-- QUALIFIED_EDGE (R108, R100). -/
def execQualifiedEdge (input : CapIx) (rise : Bool) (s : State) : Host.Outcome State Fault Refusal :=
  outcome s fun s =>
    if s.captureCompletes input && (s.caps[input]).qualified != rise then takeQualifiedEdge input rise s else s

/-- The SYNCING slot is released (R80, R89). -/
def takeXsync (s : State) : State :=
  match syncingSlot? s with
  | some i => (releaseSlot i s).settle
  | none => s

/-- XSYNC_QUALIFIED (R89): the wire has read high for 1 µs. -/
def execXsyncQualified (s : State) : Host.Outcome State Fault Refusal := outcome s (atDue (xsyncDone s.xsyncRun) takeXsync)

end Sys2Proof.Machine
end

