-- ==== Sys2Proof/Machine/Registers.lean ====
section
/-! DEFINITION. The register window (R182): what a read returns, what a write does, and the commands that are writes of
it. -/

namespace Sys2Proof.Machine

/-- A word read from an aligned offset of the window (R182). While the pin holds the part in reset it is 0. -/
def State.readRegister (s : State) (offset : BitVec 6) : Word :=
  if s.inReset then 0
  else if offset = 0 then s.ctrlWord
  else if offset = 4 then s.statWord
  else if offset = 8 then s.setupLo
  else if offset = 12 then s.setupHi
  else if offset = 16 then auxNat s.mainRing.post
  else if offset = 20 then auxNat s.mainRing.fetch
  else if offset = 24 then auxNat s.ctrlRing.post
  else if offset = 28 then auxNat s.ctrlRing.fetch
  else if offset = 32 then auxNat s.cplWrite
  else if offset = 36 then auxNat s.cplRetire
  else if offset = 40 then s.intCause.setWidth 32
  else 0

/-- A read returns the enabled bytes of the word (R182). DESIGN CHOICE (log entry 29): the spec does not say what stands in
the bytes that a read does not enable; the model returns 0 there. -/
def State.readWindow (s : State) (offset : BitVec 6) (byteEnables : BitVec 4) : Word :=
  let w := s.readRegister offset
  let byte (i : Nat) : Nat := if byteEnables.getLsbD i then (w.extractLsb' (8 * i) 8).toNat * 256 ^ i else 0
  BitVec.ofNat 32 (byte 0 + byte 1 + byte 2 + byte 3)

/-- Part states in which index writes are judged (R113, R135). -/
def PartState.judgesIndices : PartState → Bool
  | .running | .draining | .failed => true
  | .off | .starting => false

/-- A write of a post register (R113, R115, R118): taken, which ends a suspension, or ignored with INDEX_ERROR set;
ignored without it in OFF and STARTING. -/
def writePost (ring : Ring) (v : Word) (s : State) : State :=
  if s.part.judgesIndices then
    if v.toNat < placeSize (s.ring ring).place then
      s.setRing ring { s.ring ring with post := v.toNat, suspended := false }
    else { s with indexError := true }
  else s

/-- A write of CPL_RETIRE (R135). -/
def writeRetire (v : Word) (s : State) : State :=
  if s.part.judgesIndices then
    if v.toNat < placeSize s.cplPlace then { s with cplRetire := v.toNat } else { s with indexError := true }
  else s

/-- The ENABLE field of a CTRL write acted on (R152). -/
def writeEnable (enable : Bool) (s : State) : State :=
  match s.part, enable with
  | .off, true => enterStarting s
  | .starting, false => { s with part := .off, setupRead := none }
  | .running, false => enterDraining s
  | .off, false | .starting, true | .running, true | .draining, _ | .failed, _ => s

/-- A write of CTRL (R152, R168, R182): SOFT_RESET alone where it is set, else INT_ENABLE and ENABLE. -/
def writeCtrl (v : Word) (s : State) : State :=
  if v.getLsbD 1 then softResetPart s
  else writeEnable (v.getLsbD 0) { s with intEnable := v.getLsbD 2 }

/-- A write of STAT acts on INDEX_ERROR alone (R115, R182). -/
def writeStat (v : Word) (s : State) : State := if v.getLsbD 11 then { s with indexError := false } else s

/-- A write of INT_CAUSE clears each cause written with a 1 (R144). -/
def writeIntCause (v : Word) (s : State) : State := { s with intCause := s.intCause &&& ~~~(v.setWidth 4) }

/-- A write to the register window (R182): ignored with fewer than four bytes enabled, at a read-only register and at
an unassigned offset. -/
def writeWindow (offset : BitVec 6) (byteEnables : BitVec 4) (v : Word) (s : State) : State :=
  if byteEnables ≠ 15 then s
  else if offset = 0 then writeCtrl v s
  else if offset = 4 then writeStat v s
  else if offset = 8 then { s with setupLo := v }
  else if offset = 12 then { s with setupHi := v }
  else if offset = 16 then writePost .main v s
  else if offset = 24 then writePost .ctrl v s
  else if offset = 36 then writeRetire v s
  else if offset = 40 then writeIntCause v s
  else s

/-! ### Accesses of 64 bits (R182) -/

/-- The command that a write of one word to the window is (R182). -/
def windowCommand (offset : BitVec 6) (byteEnables : BitVec 4) (v : Word) : Instr :=
  if byteEnables ≠ 15 then .ignoredRegisterWrite offset byteEnables v
  else if offset = 0 then
    if v.getLsbD 1 then .softReset v else if v.getLsbD 0 then .enableSet v else .enableClear v
  else if offset = 4 then .indexErrorClear v
  else if offset = 8 then .setupLo v
  else if offset = 12 then .setupHi v
  else if offset = 16 then .mainPost v
  else if offset = 24 then .ctrlPost v
  else if offset = 36 then .cplRetire v
  else if offset = 40 then .intCauseClear v
  else .ignoredRegisterWrite offset byteEnables v

/-- An access of 64 bits at an offset has its upper word in the window. DESIGN CHOICE (log entry 29): the spec does not say
what happens where the upper word lies past the 64 bytes, at offset 60; in the model it is then no access of the window. -/
def upperInWindow (offset : BitVec 6) : Bool := decide (offset.toNat + 4 < 64)

/-- The commands that a write of 64 bits is: two word accesses, the lower offset first (R182); of an upper word past the
window there is none (log entry 29). -/
def windowCommands64 (offset : BitVec 6) (byteEnables : BitVec 8) (v : BitVec 64) : List Instr :=
  windowCommand offset (byteEnables.extractLsb' 0 4) (v.extractLsb' 0 32)
    :: if upperInWindow offset then
        [windowCommand (offset + 4) (byteEnables.extractLsb' 4 4) (v.extractLsb' 32 32)]
      else []

/-- What a read of 64 bits returns: the lower word as the part stands at the first of its two word accesses, the upper word
as it stands at the second (R182); an upper word past the window is 0 (log entry 29). -/
def readWindow64 (first second : State) (offset : BitVec 6) (byteEnables : BitVec 8) : BitVec 64 :=
  (if upperInWindow offset then second.readWindow (offset + 4) (byteEnables.extractLsb' 4 4) else 0)
    ++ first.readWindow offset (byteEnables.extractLsb' 0 4)

/-! ### The commands -/

/-- ENABLE_SET (R152): a write of CTRL with ENABLE 1. -/
def execEnableSet (v : Word) (s : State) : Host.Outcome State Fault Refusal := outcome s (writeWindow 0 15 v)

/-- ENABLE_CLEAR (R152, R158): a write of CTRL with ENABLE 0. -/
def execEnableClear (v : Word) (s : State) : Host.Outcome State Fault Refusal := outcome s (writeWindow 0 15 v)

/-- SOFT_RESET (R168): a write of CTRL with SOFT_RESET set. -/
def execSoftReset (v : Word) (s : State) : Host.Outcome State Fault Refusal := outcome s (writeWindow 0 15 v)

/-- INT_ENABLE (R147): a write of CTRL for its INT_ENABLE field; it carries ENABLE as every write of CTRL does (R152,
log entry 18). -/
def execIntEnable (v : Word) (s : State) : Host.Outcome State Fault Refusal := outcome s (writeWindow 0 15 v)

/-- SETUP_LO (R153). -/
def execSetupLo (v : Word) (s : State) : Host.Outcome State Fault Refusal := outcome s (writeWindow 8 15 v)

/-- SETUP_HI (R153). -/
def execSetupHi (v : Word) (s : State) : Host.Outcome State Fault Refusal := outcome s (writeWindow 12 15 v)

/-- MAIN_POST (R113). -/
def execMainPost (v : Word) (s : State) : Host.Outcome State Fault Refusal := outcome s (writeWindow 16 15 v)

/-- CTRL_POST (R113). -/
def execCtrlPost (v : Word) (s : State) : Host.Outcome State Fault Refusal := outcome s (writeWindow 24 15 v)

/-- CPL_RETIRE (R135). -/
def execCplRetire (v : Word) (s : State) : Host.Outcome State Fault Refusal := outcome s (writeWindow 36 15 v)

/-- INT_CAUSE_CLEAR (R144). -/
def execIntCauseClear (v : Word) (s : State) : Host.Outcome State Fault Refusal := outcome s (writeWindow 40 15 v)

/-- INDEX_ERROR_CLEAR (R115). -/
def execIndexErrorClear (v : Word) (s : State) : Host.Outcome State Fault Refusal := outcome s (writeWindow 4 15 v)

/-- IGNORED_REGISTER_WRITE (R182): a write that the window ignores. -/
def execIgnoredRegisterWrite (offset : BitVec 6) (byteEnables : BitVec 4) (v : Word) (s : State) :
    Host.Outcome State Fault Refusal :=
  outcome s (writeWindow offset byteEnables v)

end Sys2Proof.Machine
end

