-- ==== Sys2Proof/Machine/Resets.lean ====
section
/-! DEFINITION. The resets that are not a register write (R168, R171, R172), and the levels of the output pins (R170,
R171). -/

namespace Sys2Proof.Machine

/-- The RST# qualifier completes its change, and every block is at its reset values (R168, R172). -/
def changeReset (s : State) : State := resetPart { s with rst := s.rst.change }

/-- PIN_RESET_ASSERT (R171, R172): RST# has been low for 1 µs, and the part is held in reset with its outputs at their
reset levels (log entries 6 and 16). -/
def execPinResetAssert (s : State) : Host.Outcome State Fault Refusal :=
  outcome s fun s => if s.rstCompletes then changeReset s else s

/-- PIN_RESET_RELEASE (R168, R172): RST# has been high for 1 µs, and the part leaves reset with every block at its reset
values and every qualifier at its pin's level (log entry 6). -/
def execPinResetRelease (s : State) : Host.Outcome State Fault Refusal :=
  if s.inReset && s.rstCompletes then .next (finish (changeReset s)) else .next s

/-- CONVENTIONAL_RESET (R168): the end of the link's conventional reset. -/
def execConventionalReset (s : State) : Host.Outcome State Fault Refusal := outcome s resetPart

/-- FUNCTION_LEVEL_RESET (R168). -/
def execFunctionLevelReset (s : State) : Host.Outcome State Fault Refusal := outcome s resetPart

/-! ### Output pins (R170) -/

/-- The STEP pin of channel c is high. -/
def State.stepPin (s : State) (c : Chan) : Bool := (s.chan c).pgn.pulseEnd.isSome

/-- The DIR pin of channel c is high (R174). -/
def State.dirPin (s : State) (c : Chan) : Bool := (s.chan c).pgn.dirHigh

/-- The AUX pins follow the latch (R176). -/
def State.auxPins (s : State) : Mask := s.aux

/-- The part drives the XSYNC wire low (R177). -/
def State.xsyncPinLow (s : State) : Bool := s.xsyncLow

/-- The level read on the XSYNC wire (R177): low while this part drives it. -/
def State.xsyncWire (s : State) : Bool := s.xsync && !s.xsyncLow

end Sys2Proof.Machine
end

