-- ==== Sys2Proof/Machine/Dispatch.lean ====
section
/-! DEFINITION. What each command does: one meaning per constructor of Instr. -/

namespace Sys2Proof.Machine

def exec (i : Instr) (s : State) : Host.Outcome State Fault Refusal :=
  match i with
  | .move ring => Sys2Proof.Machine.execMove ring s
  | .dwell ring => Sys2Proof.Machine.execDwell ring s
  | .setPosition ring => Sys2Proof.Machine.execSetPosition ring s
  | .mark ring => Sys2Proof.Machine.execMark ring s
  | .rendezvous ring => Sys2Proof.Machine.execRendezvous ring s
  | .setProfile ring => Sys2Proof.Machine.execSetProfile ring s
  | .fence ring => Sys2Proof.Machine.execFence ring s
  | .nop ring => Sys2Proof.Machine.execNop ring s
  | .halt ring => Sys2Proof.Machine.execHalt ring s
  | .resume ring => Sys2Proof.Machine.execResume ring s
  | .overrideRate ring => Sys2Proof.Machine.execOverrideRate ring s
  | .cancelRendezvous ring => Sys2Proof.Machine.execCancelRendezvous ring s
  | .setWatch ring => Sys2Proof.Machine.execSetWatch ring s
  | .clearWatch ring => Sys2Proof.Machine.execClearWatch ring s
  | .setChannel ring => Sys2Proof.Machine.execSetChannel ring s
  | .query ring => Sys2Proof.Machine.execQuery ring s
  | .clearEstop ring => Sys2Proof.Machine.execClearEstop ring s
  | .badKindRecord ring => Sys2Proof.Machine.execBadKindRecord ring s
  | .enableSet value => Sys2Proof.Machine.execEnableSet value s
  | .enableClear value => Sys2Proof.Machine.execEnableClear value s
  | .softReset value => Sys2Proof.Machine.execSoftReset value s
  | .intEnable value => Sys2Proof.Machine.execIntEnable value s
  | .setupLo value => Sys2Proof.Machine.execSetupLo value s
  | .setupHi value => Sys2Proof.Machine.execSetupHi value s
  | .mainPost value => Sys2Proof.Machine.execMainPost value s
  | .ctrlPost value => Sys2Proof.Machine.execCtrlPost value s
  | .cplRetire value => Sys2Proof.Machine.execCplRetire value s
  | .intCauseClear value => Sys2Proof.Machine.execIntCauseClear value s
  | .indexErrorClear value => Sys2Proof.Machine.execIndexErrorClear value s
  | .ignoredRegisterWrite offset byteEnables value => Sys2Proof.Machine.execIgnoredRegisterWrite offset byteEnables value s
  | .pinResetAssert => Sys2Proof.Machine.execPinResetAssert s
  | .pinResetRelease => Sys2Proof.Machine.execPinResetRelease s
  | .conventionalReset => Sys2Proof.Machine.execConventionalReset s
  | .functionLevelReset => Sys2Proof.Machine.execFunctionLevelReset s
  | .estopAssertion => Sys2Proof.Machine.execEstopAssertion s
  | .estopNegation => Sys2Proof.Machine.execEstopNegation s
  | .limitQualifiedChange channel input active => Sys2Proof.Machine.execLimitQualifiedChange channel input active s
  | .qualifiedEdge input rise => Sys2Proof.Machine.execQualifiedEdge input rise s
  | .xsyncQualified => Sys2Proof.Machine.execXsyncQualified s
  | .stepEmission channel => Sys2Proof.Machine.execStepEmission channel s
  | .settleEnd channel => Sys2Proof.Machine.execSettleEnd channel s
  | .pulseEnd channel => Sys2Proof.Machine.execPulseEnd channel s
  | .segmentEnd channel => Sys2Proof.Machine.execSegmentEnd channel s
  | .stopRest channel => Sys2Proof.Machine.execStopRest channel s
  | .dwellExpiry channel => Sys2Proof.Machine.execDwellExpiry channel s
  | .rendezvousExpiry slot => Sys2Proof.Machine.execRendezvousExpiry slot s
  | .coalescingDelayExpiry => Sys2Proof.Machine.execCoalescingDelayExpiry s
  | .fetchDone ring read data => Sys2Proof.Machine.execFetchDone ring read data s
  | .fetchFault ring read => Sys2Proof.Machine.execFetchFault ring read s
  | .completionWriteDone write => Sys2Proof.Machine.execCompletionWriteDone write s
  | .completionWriteFault write => Sys2Proof.Machine.execCompletionWriteFault write s
  | .setupReadDone read block => Sys2Proof.Machine.execSetupReadDone read block s
  | .setupReadFail read => Sys2Proof.Machine.execSetupReadFail read s
  | .fetchBegin ring => Sys2Proof.Machine.execFetchBegin ring s
  | .completionWriteBegin => Sys2Proof.Machine.execCompletionWriteBegin s
  | .drainComplete => Sys2Proof.Machine.execDrainComplete s

end Sys2Proof.Machine
end

