-- ==== Sys2Proof/Machine/Time.lean ====
section
/-! DEFINITION. The part's own clock: what a step does when no command waits (log entry 1). Either an event that has fallen
due is put at the front of the queue, or one reference cycle passes and every input pin is sampled. -/

namespace Sys2Proof.Machine

/-! ### Sampling the inputs -/

/-- One reference cycle passes, and every input is sampled (R147, R175, R177). -/
def tickWith (p : Inputs) (s : State) : State :=
  let s1 := s.nextCycle
  { s1 with
    chans := updateAll allChans (fun c ch => ch.sampleLimits p s1.now c) s1.chans
    caps := updateAll allCaps (fun i q => q.sample q.level (pinLevel Config.pullUp p.cap[i]) s1.now) s1.caps
    estop := s1.estop.sample (!s1.estop.level) (pinLevel Config.pullDown p.estopN) s1.now
    rst := s1.rst.sample (!s1.rst.level) (pinLevel Config.pullUp p.rstN) s1.now
    xsync := p.xsyncOthers
    xsyncRun := sampleXsync (syncingSlot? s1).isSome (p.xsyncOthers && !s1.xsyncLow) s1.xsyncRun s1.now
    msiEnabled := p.msiEnabled }

/-! ### The events that have fallen due -/

/-- A command, where its condition holds. -/
def eventIf (b : Bool) (i : Instr) : List Instr := if b then [i] else []

/-- The command that takes a record of a kind. -/
def takeCommand (ring : Ring) : Option ReqKind → Instr
  | none => .badKindRecord ring
  | some .move => .move ring
  | some .dwell => .dwell ring
  | some .setPosition => .setPosition ring
  | some .mark => .mark ring
  | some .rendezvous => .rendezvous ring
  | some .setProfile => .setProfile ring
  | some .fence => .fence ring
  | some .nop => .nop ring
  | some .halt => .halt ring
  | some .resume => .resume ring
  | some .overrideRate => .overrideRate ring
  | some .cancelRendezvous => .cancelRendezvous ring
  | some .setWatch => .setWatch ring
  | some .clearWatch => .clearWatch ring
  | some .setChannel => .setChannel ring
  | some .query => .query ring
  | some .clearEstop => .clearEstop ring

/-- The take that the arbiter makes now, if any (R123). -/
def takeEvents (s : State) (ring : Ring) : List Instr :=
  match takeable s ring with
  | some r => [takeCommand ring (recReq? r)]
  | none => []

/-- A channel's own events that have fallen due. -/
def chanEvents (s : State) (c : Chan) : List Instr :=
  let ch := s.chan c
  eventIf (reached s.now (dueStep ch)) (.stepEmission c)
    ++ eventIf (reached s.now (dueSettle ch)) (.settleEnd c)
    ++ eventIf (reached s.now (duePulse ch)) (.pulseEnd c)
    ++ eventIf (reached s.now (dueSegmentEnd ch)) (.segmentEnd c)
    ++ eventIf (reached s.now (dueStopRest ch)) (.stopRest c)
    ++ eventIf (reached s.now (dueDwell ch)) (.dwellExpiry c)

/-- The qualified change of a limit input that completes now (R66). -/
def limitEvents (s : State) (c : Chan) (input : LimitInput) : List Instr :=
  let ch := s.chan c
  eventIf (ch.limitCompletes input s.now) (.limitQualifiedChange c input (!(ch.limit input).qualified))

/-- The qualified edge of a capture input that completes now (R108). -/
def captureEvents (s : State) (i : CapIx) : List Instr :=
  eventIf (s.captureCompletes i) (.qualifiedEdge i (!(s.caps[i]).qualified))

/-- The change of the ESTOP qualifier that completes now (R163). -/
def estopEvents (s : State) : List Instr :=
  eventIf s.estopCompletes (if s.estop.qualified then .estopNegation else .estopAssertion)

/-- The change of the RST# qualifier that completes now (R172). -/
def rstEvents (s : State) : List Instr :=
  eventIf s.rstCompletes (if s.rst.qualified then .pinResetRelease else .pinResetAssert)

/-- The completion of XSYNC qualification, where it falls now (R89). -/
def xsyncEvents (s : State) : List Instr :=
  eventIf ((syncingSlot? s).isSome && reached s.now (xsyncDone s.xsyncRun)) .xsyncQualified

/-- The steps that the part begins by itself now (R117, R123, R136, R159). -/
def ownEvents (s : State) : List Instr :=
  eventIf (canFetch s .ctrl) (.fetchBegin .ctrl) ++ eventIf (canFetch s .main) (.fetchBegin .main)
    ++ takeEvents s .ctrl ++ takeEvents s .main
    ++ eventIf (canWrite s) .completionWriteBegin ++ eventIf (drained s) .drainComplete

/-- Every event that has fallen due. While the pin holds the part in reset there is only the end of that reset (R172). -/
def dueEvents (s : State) : List Instr :=
  if s.inReset then rstEvents s
  else
    rstEvents s ++ ownEvents s ++ allChans.flatMap (chanEvents s)
      ++ allSlots.flatMap (fun i => eventIf (reached s.now (dueExpiry s.slots[i])) (.rendezvousExpiry i))
      ++ eventIf (reached s.now (dueCoalescing s)) .coalescingDelayExpiry
      ++ allChans.flatMap (fun c => limitEvents s c .limp ++ limitEvents s c .limn)
      ++ allCaps.flatMap (captureEvents s) ++ estopEvents s ++ xsyncEvents s

/-- What the part does when no command waits (log entries 1 and 4): an event that has fallen due is put in the queue,
where there are several the one that a free value chooses; where there is none, one reference cycle passes. Time passes in
no other way, so no event overtakes a sample or another event. -/
def idle (s : State) : State :=
  match dueEvents s with
  | [] => tickWith (Config.inputs s.now) s
  | [e] => { s with pending := [e] }
  | e :: rest =>
    { s with
      pending := [(e :: rest).getD (Config.eventChoice s.choices % (e :: rest).length) e]
      choices := s.choices + 1 }

end Sys2Proof.Machine
end

