-- ==== Sys2Proof/Safety.lean ====
section
/-! DEFINITION. What a good state of the QS-8 is: the conditions the spec says always hold, each a predicate on State. They
hold at reset and every step keeps them; the statements are in Certificates/. -/

namespace Sys2Proof.Machine

/-- Every channel configuration record holds accepted values (R52, R62). -/
def State.configsValid (s : State) : Prop := ∀ c : Chan, (s.chan c).cfg.valid = true

/-- Every DEFINED profile holds accepted values (R27, R28). -/
def State.profilesValid (s : State) : Prop := ∀ (i : ProfIx) (p : Profile), s.profiles[i] = some p → p.valid = true

/-- At most 64 credits are held, at most 56 of them by main-ring requests (R125). -/
def State.creditsBounded (s : State) : Prop :=
  s.mainRing.credits ≤ Config.creditMain ∧ s.mainRing.credits + s.ctrlRing.credits ≤ Config.creditTotal

/-- At most 16 notices wait in the posting queue, and the lost count is at most 255 (R139, R140). -/
def State.noticesBounded (s : State) : Prop := s.notices ≤ Config.noticeLimit ∧ s.lost ≤ 255

/-- A segment queue holds at most 8 entries, the head included (R1). -/
def State.queuesBounded (s : State) : Prop := ∀ c : Chan, (s.chan c).queue.length ≤ Config.queueDepth

/-- The queue is as the channel state says (R51): empty in DISABLED, IDLE and HELD, a MOVE at the head in RUNNING, that
MOVE alone in STOPPING, a DWELL at the head in DWELLING and a MARKER in WAITING. -/
def Channel.shaped (ch : Channel) : Bool :=
  match ch.state, ch.queue with
  | .disabled, [] => true
  | .idle, [] => true
  | .held, [] => true
  | .running, .move _ :: _ => true
  | .stopping, [.move _] => true
  | .dwelling, .dwell _ _ :: _ => true
  | .waiting, .marker _ :: _ => true
  | _, _ => false

/-- Every channel's queue is as its state says (R51). -/
def State.queuesShaped (s : State) : Prop := ∀ c : Chan, (s.chan c).shaped = true

/-- While the ESTOP latch is set every channel is HELD or DISABLED (R163). -/
def State.estopHolds (s : State) : Prop :=
  s.estopLatch = true → ∀ c : Chan, (s.chan c).state = .held ∨ (s.chan c).state = .disabled

/-- A channel that a pending HALT may still wait for (R60): STOPPING, or HELD while its pulse is high. -/
def Channel.comingToRest (ch : Channel) : Bool :=
  ch.state == .stopping || (ch.state == .held && ch.pgn.pulseEnd.isSome)

/-- Every pending HALT waits for at least one channel, and only for channels still coming to rest (R60). -/
def State.haltsSettled (s : State) : Prop :=
  ∀ h ∈ s.halts, h.waiting ≠ 0 ∧ ∀ c : Chan, hasChan h.waiting c = true → (s.chan c).comingToRest = true

/-- The interrupt request is asserted exactly while a cause is set and INT_ENABLE is 1 (R147). -/
def State.irqFollows (s : State) : Prop := s.irq = (s.intCause != 0 && s.intEnable)

/-- A slot in use is as R72 to R80 and R89 leave it between commands: it has members, the arrived ones are members, it
is SYNCING exactly when all have arrived, and only an EXTERNAL slot is ever SYNCING. -/
def Slot.sound (sl : Slot) : Prop :=
  sl.members ≠ 0 ∧ sl.arrived &&& sl.members = sl.arrived ∧ (sl.state = .syncing ↔ sl.arrived = sl.members)
    ∧ (sl.state = .syncing → sl.external = true)

/-- The open list names each slot in use once, at most one of them is EXTERNAL, and XSYNC is driven low exactly while
that one's arrived set is incomplete (R73, R76, R88). -/
def State.slotsSound (s : State) : Prop :=
  s.openList.Nodup ∧ (∀ i : SlotIx, i ∈ s.openList ↔ (s.slots[i]).isSome = true)
    ∧ (∀ (i : SlotIx) (sl : Slot), s.slots[i] = some sl → sl.sound)
    ∧ (∀ (i j : SlotIx) (a b : Slot), s.slots[i] = some a → s.slots[j] = some b → a.external = true →
        b.external = true → i = j)
    ∧ (s.xsyncLow = true ↔ ∃ (i : SlotIx) (sl : Slot), s.slots[i] = some sl ∧ sl.external = true ∧ sl.arrived ≠ sl.members)

/-- The outputs stand as their part state allows (R170 to R172): in OFF and STARTING every channel is at rest with STEP low, in
DRAINING and FAILED none is RUNNING, DWELLING or WAITING, outside RUNNING no slot is open and XSYNC is released, and while
the pin holds the part in reset every output is at its reset level. -/
def State.outputsSound (s : State) : Prop :=
  (s.part = .off ∨ s.part = .starting →
    ∀ c : Chan, (s.chan c).state ∈ [ChanState.disabled, .idle, .held] ∧ (s.chan c).pgn.pulseEnd = none)
  ∧ (s.part = .draining ∨ s.part = .failed → ∀ c : Chan, (s.chan c).state ∈ [ChanState.disabled, .idle, .stopping, .held])
  ∧ (s.part ≠ .running → s.openList = [] ∧ s.xsyncLow = false)
  ∧ (s.inReset = true → s.aux = 0 ∧ s.xsyncLow = false
      ∧ ∀ c : Chan, (s.chan c).pgn.pulseEnd = none ∧ (s.chan c).pgn.dirHigh = false)

/-- The outcome is a next state, and it meets a condition. -/
def Answers (o : Host.Outcome State Fault Refusal) (p : State → Prop) : Prop := ∃ t, o = .next t ∧ p t

/-! ### What the statements of takes and events assume -/

/-- The arbiter takes a record of a kind from a ring now, and the record passes intake's own checks (R120, R123). -/
structure Taken (s : State) (ring : Ring) (k : ReqKind) (r : Block) : Prop where
  awake : s.inReset = false
  takes : takeable s ring = some r
  kind : recReq? r = some k
  passes : intakeRefusal ring r = none

/-- What every take does to the rings (R123): a credit is charged to the ring the record came from, its fetch index
advances modulo its size and its buffer is EMPTY; the other ring is as it was. -/
def TookFrom (s t : State) (ring : Ring) : Prop :=
  t.ring ring = { s.ring ring with
      credits := (s.ring ring).credits + 1
      fetch := ((s.ring ring).fetch + 1) % placeSize (s.ring ring).place
      buffer := .empty }
    ∧ ∀ other : Ring, other ≠ ring → t.ring other = s.ring other

/-- No ARMED watch fires on a step of a channel to a position (R99). -/
def NoneFires (s : State) (c : Chan) (position : Word) (positive : Bool) : Prop :=
  ∀ (i : WatchIx) (w : Watch), s.watches[i] = some w → firesOnStep w c position positive = false

/-! ### What the statements say of several records or watches at once -/

/-- Where watches are evaluated, each COOLING watch on channel c that stands at least H from its P at a position is ARMED,
and every other watch is as it was (R98, R101, R102). -/
def Rearmed (s t : State) (c : Chan) (position : Word) : Prop :=
  ∀ i : WatchIx, t.watches[i] =
    if s.part.evaluatesWatches then
      (s.watches[i]).map fun w => if rearms w c position then { w with state := .armed } else w
    else s.watches[i]

/-- Channel ch with head m becomes ch' as it emits a scheduled step now: the step at the pin and in the counts (R32, R33), the
binding decision where it falls at this boundary (R37, R39), and the next step, under the rate law (R36 to R38) or the stopping
law (R43, R44), or the end of this step's period. -/
def Stepped (ch : Channel) (m : MoveEntry) (x : Sched) (now : Nat) (ch' : Channel) : Prop :=
  let p := ch'.pgn
  let left := ch.pgn.remaining - 1
  let vsSq := m.profile.vs ^ 2
  let vtSq := exitTarget ch'.binding m ^ 2
  let uSq := candidateSq x.rateSq (m.profile.vc ^ 2) m.profile.a m.profile.b
  let follows (w : Nat) := p.schedule = some { due := now + stepPeriod w, rateSq := w } ∧ p.lastEnd = ch.pgn.lastEnd
  let kept := p.phase = ch.pgn.phase ∧ p.lastVtSq = ch.pgn.lastVtSq
  let ends := p.schedule = none ∧ p.lastEnd = some (now + stepPeriod x.rateSq) ∧ kept
  ch' = { ch with
    binding := ch'.binding
    pgn := { ch.pgn with
      position := if ch.positive then ch.pgn.position + 1 else ch.pgn.position - 1
      rateSq := x.rateSq, pulseEnd := some (now + 40 * ch.cfg.pulseWidth), emitted := ch.pgn.emitted + 1,
      remaining := left, stopHold := none, lastStepAt := now, schedule := p.schedule, lastEnd := p.lastEnd,
      phase := p.phase, lastVtSq := p.lastVtSq } }
  ∧ (left = 0 → ends)
  ∧ (ch.binding ≠ .pending → ch'.binding = ch.binding)
  ∧ (left = 0 ∨ ch.pgn.stopMode = .decel ∨ ch.pgn.phase = .final → ch'.binding = ch.binding)
  ∧ (1 ≤ left → ch.pgn.stopMode ≠ .decel → ch.pgn.phase ≠ .final → ch.binding = .pending → ∀ r, ch.resolved = some r →
      (left ≠ 1 → stepsDown uSq vsSq m.profile.b ≤ left - 1 → ch'.binding = .pending)
      ∧ (left = 1 ∨ left - 1 < stepsDown uSq vsSq m.profile.b → ch'.binding = decideBinding ch m r))
  ∧ (1 ≤ left → ch.pgn.stopMode ≠ .decel →
      p.lastVtSq = vtSq
      ∧ (ch.pgn.phase = .final → follows (max (x.rateSq - 2 * m.profile.b) vtSq) ∧ p.phase = .final)
      ∧ (ch.pgn.phase ≠ .final → stepsDown uSq vtSq m.profile.b ≤ left - 1 →
          follows uSq ∧ p.phase = phaseOf uSq (m.profile.vc ^ 2))
      ∧ (ch.pgn.phase ≠ .final → left - 1 < stepsDown uSq vtSq m.profile.b →
          follows (max (x.rateSq - 2 * m.profile.b) vtSq) ∧ p.phase = .final))
  ∧ (1 ≤ left → ch.pgn.stopMode = .decel →
      kept ∧ (vsSq < x.rateSq → follows (max (x.rateSq - 2 * m.profile.b) vsSq)) ∧ (x.rateSq ≤ vsSq → ends))

/-- A channel with no entry left, before its state is given (R9). -/
def Channel.emptied (ch : Channel) (state : ChanState) : Channel :=
  { ch with state := state, queue := [], resolved := none, binding := .notChained, watchHalt := false }

/-- The waiting mask of a pending HALT once channel c has come to rest (R60). -/
def stillWaiting (c : Chan) (h : PendingHalt) : Mask := h.waiting &&& ~~~chanBit c

/-- The pending HALTs that remain once channel c has come to rest (R60). -/
def haltsAfterRest (s : State) (c : Chan) : List PendingHalt :=
  s.halts.filterMap fun h => if stillWaiting c h = 0 then none else some { h with waiting := stillWaiting c h }

/-- The completions of the HALTs that waited for channel c alone, as it comes to rest (R60), in the model's order (log entry
5). -/
def haltsDoneAtRest (s : State) (c : Chan) : List Cpl :=
  (s.halts.filter fun h => stillWaiting c h == 0).map fun h =>
    s.done .ctrl ReqKind.halt.code h.tag .ok .clear 0 0 (auxMask h.halted) (auxMask h.untouched)

/-- The pending HALTs of a state that remain once its channels stand as in another (R60). -/
def haltsLeft (s t : State) : List PendingHalt :=
  (s.halts.filter fun h => stillMoving t h.waiting != 0).map fun h => { h with waiting := stillMoving t h.waiting }

/-- The completions of the pending HALTs of a state that wait for no channel once its channels stand as in another (R60), in
the model's order (log entry 5). -/
def haltsDone (s t : State) : List Cpl :=
  (s.halts.filter fun h => stillMoving t h.waiting == 0).map fun h =>
    s.done .ctrl ReqKind.halt.code h.tag .ok .clear 0 0 (auxMask h.halted) (auxMask h.untouched)

/-- The AUX latch after the MARKs of a list, in order (R18, R24). -/
def marksAux : List Entry → Mask → Mask
  | [], aux => aux
  | .mark _ set clear :: rest, aux => marksAux rest ((aux ||| set) &&& ~~~clear)
  | .move _ :: rest, aux | .dwell _ _ :: rest, aux | .setPosition _ _ :: rest, aux | .marker _ :: rest, aux =>
    marksAux rest aux

/-- The completions of the MARKs of a list, in order, with channel c's position now (R18, R24). -/
def markRecords (s : State) (c : Chan) : List Entry → Mask → List Cpl
  | [], _ => []
  | .mark tag set clear :: rest, aux =>
    s.done .main ReqKind.mark.code tag .ok .clear (chanByte c) (s.position c) (auxMask ((aux ||| set) &&& ~~~clear)) 0
      :: markRecords s c rest ((aux ||| set) &&& ~~~clear)
  | .move _ :: rest, aux | .dwell _ _ :: rest, aux | .setPosition _ _ :: rest, aux | .marker _ :: rest, aux =>
    markRecords s c rest aux

/-- The RENDEZVOUS completion of a slot that fails with a status, other than by the withdrawal of a member; it shows the
lowest member (R33, R82). -/
def slotFailure (s : State) (status : Status) (i : SlotIx) (sl : Slot) : Cpl :=
  let c := lowestChan sl.members
  (s.done .main ReqKind.rendezvous.code sl.tag status .clear (chanByte c) (s.position c) (auxNat i.val)
    (auxMask sl.arrived)).showing s c

/-- The RENDEZVOUS completions of every open slot failing with a status, in the order of the open list (R85, R86). -/
def slotFailures (s : State) (status : Status) : List Cpl :=
  s.openList.filterMap fun i => (s.slots[i]).map (slotFailure s status i)

/-- The RENDEZVOUS completions among some records. -/
def rendezvousRecords (l : List Cpl) : List Cpl := l.filter fun r => !r.notice && r.kind == ReqKind.rendezvous.code

end Sys2Proof.Machine
end

