-- ==== Sys2Proof/WellFormed.lean ====
section
/-! DEFINITION. Which commands are the row they name: the word that a CTRL or STAT write carries must be the one its
row speaks of, and an ignored register write must be one that R182 says is ignored. Everything else about an operand
is in its type. -/

namespace Sys2Proof

/-- A window write that the host interface ignores: fewer than four bytes enabled, a read-only register, or an
unassigned offset (R182). -/
def windowWriteIgnored (offset : BitVec 6) (byteEnables : BitVec 4) : Bool :=
  byteEnables != 15 || offset == 20 || offset == 28 || offset == 32 || decide (44 ≤ offset.toNat)

/-- The command is the one its row describes. CTRL bit 0 is ENABLE, bit 1 SOFT_RESET, bit 2 INT_ENABLE; STAT bit 11 is
INDEX_ERROR (R182). A window access is aligned to a word (R182). -/
def Instr.wf : Instr → Bool
  | .enableSet v => v.getLsbD 0 && !v.getLsbD 1
  | .enableClear v => !v.getLsbD 0 && !v.getLsbD 1
  | .softReset v => v.getLsbD 1
  | .intEnable v => !v.getLsbD 1
  | .indexErrorClear v => v.getLsbD 11
  | .ignoredRegisterWrite off be _ => decide (off.toNat % 4 = 0) && windowWriteIgnored off be
  | .move _ | .dwell _ | .setPosition _ | .mark _ | .rendezvous _ | .setProfile _ | .fence _ | .nop _
  | .halt _ | .resume _ | .overrideRate _ | .cancelRendezvous _ | .setWatch _ | .clearWatch _ | .setChannel _
  | .query _ | .clearEstop _ | .badKindRecord _
  | .setupLo _ | .setupHi _ | .mainPost _ | .ctrlPost _ | .cplRetire _ | .intCauseClear _
  | .pinResetAssert | .pinResetRelease | .conventionalReset | .functionLevelReset
  | .estopAssertion | .estopNegation | .limitQualifiedChange _ _ _ | .qualifiedEdge _ _ | .xsyncQualified
  | .stepEmission _ | .settleEnd _ | .pulseEnd _ | .segmentEnd _ | .stopRest _ | .dwellExpiry _
  | .rendezvousExpiry _ | .coalescingDelayExpiry
  | .fetchDone _ _ _ | .fetchFault _ _ | .completionWriteDone _ | .completionWriteFault _
  | .setupReadDone _ _ | .setupReadFail _
  | .fetchBegin _ | .completionWriteBegin | .drainComplete => true

end Sys2Proof
end

