-- ==== Sys2Proof/Certificates/Slice0/Obligations.lean ====
section
/-! DEFINITION. The statements about the QS-8 that are to be proved. Each is a closed proposition over the model; the rule of
spec/ that it comes from stands in its docstring. A clause `t = { s with f := t.f, … }` says that every field not named
in it is as it was before. -/

open Sys2Proof Sys2Proof.Machine

/-! ### The machine as a whole -/

/-- A step takes the command at the front of the queue and runs it on the state with the queue's rest. -/
def Obligations.StepRunsFrontCommand : Prop :=
  ∀ (c : Instr) (rest : List Instr) (s : State),
    step { s with pending := c :: rest } = exec c { s with pending := rest }

/-- The model's choice (log entries 1 and 4): on an empty queue a step raises an event that has fallen due, or, where there is
none, lets one reference cycle pass, in which the motion clock counts (R157; its first microsecond, log entry 21) and every
input is sampled: an unconnected pin reads its resistor's level (R175), a qualifier counts from the sample at which its pin
changed, XSYNC's run of high readings goes on or ends (R89, R177), and no qualified state changes. A qualifier completes a
change once the pin has shown the level for the filter time (R66, R108, R163, R172). That it completes also where the pin turns
back at that very instant, and that XSYNC's run is kept as it reaches 1 µs, is the model's choice (log entry 6).
EventsFallDue says which events have fallen due. -/
def Obligations.EmptyQueueRunsTheClock : Prop :=
  (∀ s : State, s.pending = [] →
     (dueEvents s = [] → step s = .next (tickWith (Config.inputs s.now) s))
     ∧ (∀ e, dueEvents s = [e] → step s = .next { s with pending := [e] })
     ∧ (2 ≤ (dueEvents s).length →
         ∃ e ∈ dueEvents s, step s = .next { s with pending := [e], choices := s.choices + 1 }))
  ∧ (∀ (p : Inputs) (s : State), s.clockPart < Config.cyclesPerUs →
    let t := tickWith p s
    let now := s.now + 1
    let samples (q r : Qual) (target level : Bool) :=
      r.level = level ∧ r.qualified = q.qualified ∧ (q.level = level → r = q)
      ∧ (q.level ≠ level → r.since = now ∧ r.before = if q.qualified = target then none else some q.since)
    let syncing := (syncingSlot? s).isSome = true
    let high := p.xsyncOthers = true ∧ s.xsyncLow = false
    t.now = now
    ∧ (∀ c : Chan,
        let pol := (s.chan c).cfg.limitPolarity
        samples (s.chan c).limp (t.chan c).limp (limitActive pol (s.chan c).limp.level) ((p.limp[c]).getD true)
        ∧ samples (s.chan c).limn (t.chan c).limn (limitActive pol (s.chan c).limn.level) ((p.limn[c]).getD true)
        ∧ t.chan c = { s.chan c with limp := (t.chan c).limp, limn := (t.chan c).limn })
    ∧ (∀ i : CapIx, samples s.caps[i] t.caps[i] s.caps[i].level ((p.cap[i]).getD true))
    ∧ samples s.estop t.estop (!s.estop.level) (p.estopN.getD false)
    ∧ samples s.rst t.rst (!s.rst.level) (p.rstN.getD true)
    ∧ t.xsync = p.xsyncOthers ∧ t.msiEnabled = p.msiEnabled
    ∧ (¬syncing → t.xsyncRun = none) ∧ (syncing → high → t.xsyncRun = some (s.xsyncRun.getD now))
    ∧ (syncing → ¬high → (∀ start, s.xsyncRun = some start → start + 40 ≤ now → t.xsyncRun = some start)
        ∧ ((∀ start, s.xsyncRun = some start → now < start + 40) → t.xsyncRun = none))
    ∧ (s.part.counting = true → s.clockPart = 39 → t.clock = s.clock + 1 ∧ t.clockPart = 0)
    ∧ (s.part.counting = true → s.clockPart ≠ 39 → t.clock = s.clock ∧ t.clockPart = s.clockPart + 1)
    ∧ (s.part.counting = false → t.clock = s.clock ∧ t.clockPart = s.clockPart)
    ∧ t = { s with
        now := t.now, clock := t.clock, clockPart := t.clockPart, chans := t.chans, caps := t.caps, estop := t.estop,
        rst := t.rst, xsync := t.xsync, xsyncRun := t.xsyncRun, msiEnabled := t.msiEnabled })
  ∧ ∀ (q : Qual) (target : Bool) (filterUs now : Nat),
    q.completes target filterUs now = true ↔
      (q.qualified ≠ target ∧ q.since + 40 * filterUs ≤ now)
      ∨ (q.since = now ∧ ∃ first, q.before = some first ∧ first + 40 * filterUs ≤ now)

/-- The events that have fallen due, each at its own condition, and no other command: while the pin holds the part in reset
only the end of that reset (R172), else the events of a channel's timing (R15, R16, R31, R32, R34, R44), the changes that the
qualifiers complete (R66, R89, R108, R163, R172), the expiries (R83, R145), and what the part begins by itself: takes, fetches,
completion writes and the end of a drain (R117, R123, R136, R159). The model's choice: log entries 1, 2, 4
and 6, and log entry 14 for the length of a timer. -/
def Obligations.EventsFallDue : Prop :=
  ∀ s : State,
    let due (e : Instr) := e ∈ dueEvents s
    let come (at? : Option Nat) := ∃ instant, at? = some instant ∧ instant ≤ s.now
    let pinDone := s.rst.completes (!s.rst.level) 1 s.now = true
    let estopDone := s.estop.completes (!s.estop.level) 4 s.now = true
    (s.inReset = true → ∀ e, due e ↔ e = .pinResetRelease ∧ pinDone)
    ∧ (s.inReset = false →
      (∀ c : Chan,
        let ch := s.chan c
        let moving := ch.state = .running ∨ ch.state = .stopping
        (due (.stepEmission c) ↔ moving ∧ ∃ x, ch.pgn.schedule = some x ∧ x.due ≤ s.now)
        ∧ (due (.settleEnd c) ↔ ch.state = .running ∧ ch.pgn.phase = .settle ∧ come ch.pgn.settleEnd)
        ∧ (due (.pulseEnd c) ↔ come ch.pgn.pulseEnd)
        ∧ (due (.segmentEnd c) ↔ moving ∧ ch.pgn.remaining = 0 ∧ come ch.pgn.lastEnd)
        ∧ (due (.stopRest c) ↔ ch.state = .stopping ∧ ch.pgn.remaining ≠ 0 ∧ come ch.pgn.lastEnd)
        ∧ (due (.dwellExpiry c) ↔ ch.state = .dwelling ∧ ∃ tag duration rest start,
            ch.queue = .dwell tag duration :: rest ∧ ch.dwellStart = some start ∧ start + 40 * duration ≤ s.now)
        ∧ ∀ (input : LimitInput) (active : Bool),
          let q := ch.limit input
          let level := if ch.cfg.limitPolarity = .activeHigh then q.level else !q.level
          due (.limitQualifiedChange c input active) ↔
            q.completes level ch.cfg.limitFilter s.now = true ∧ q.qualified ≠ active)
      ∧ (∀ (i : CapIx) (rise : Bool), due (.qualifiedEdge i rise) ↔
          s.caps[i].completes s.caps[i].level s.capFilter[i] s.now = true ∧ s.caps[i].qualified ≠ rise)
      ∧ (due .estopAssertion ↔ estopDone ∧ s.estop.qualified = false)
      ∧ (due .estopNegation ↔ estopDone ∧ s.estop.qualified = true)
      ∧ (due .pinResetAssert ↔ pinDone) ∧ ¬due .pinResetRelease
      ∧ (due .xsyncQualified ↔ (∃ i ∈ s.openList, ∃ sl, s.slots[i] = some sl ∧ sl.state = .syncing)
          ∧ ∃ start, s.xsyncRun = some start ∧ start + 40 ≤ s.now)
      ∧ (∀ i : SlotIx, due (.rendezvousExpiry i) ↔
          ∃ sl, s.slots[i] = some sl ∧ sl.state ≠ .opened ∧ come sl.expiry)
      ∧ (due .coalescingDelayExpiry ↔ (s.part = .running ∨ s.part = .draining ∨ s.part = .failed) ∧ s.unannounced ≠ 0
          ∧ ∃ first count delay, s.oldest = some first ∧ s.coalescing = some (count, delay)
            ∧ first + 40 * delay ≤ s.now)
      ∧ (∀ ring, due (.fetchBegin ring) ↔ s.part = .running ∧ (s.ring ring).buffer = .empty
          ∧ (s.ring ring).suspended = false ∧ 1 ≤ (s.ring ring).posted)
      ∧ (∀ ring kind, due (takeCommand ring kind) ↔ ∃ r, takeable s ring = some r ∧ recReq? r = kind)
      ∧ (due .completionWriteBegin ↔ (s.part = .running ∨ s.part = .draining) ∧ s.writing = none ∧ s.posting ≠ []
          ∧ ∃ place, s.cplPlace = some place
            ∧ (s.cplWrite + 2 ^ place.log2 - s.cplRetire) % 2 ^ place.log2 < 2 ^ place.log2 - 1)
      ∧ (due .drainComplete ↔ s.part = .draining
          ∧ (∀ c, (s.chan c).atRest = true ∧ (s.chan c).pgn.pulseEnd = none)
          ∧ s.mainRing.credits = 0 ∧ s.ctrlRing.credits = 0 ∧ s.posting = [] ∧ s.writing = none)
      ∧ (∀ e, e.windowWrite ≠ none → ¬due e) ∧ ¬due .conventionalReset ∧ ¬due .functionLevelReset
      ∧ (∀ ring read data, ¬due (.fetchDone ring read data) ∧ ¬due (.fetchFault ring read))
      ∧ (∀ write, ¬due (.completionWriteDone write) ∧ ¬due (.completionWriteFault write))
      ∧ ∀ read block, ¬due (.setupReadDone read block) ∧ ¬due (.setupReadFail read))

/-- The model's choice (log entries 1, 2 and 19): every command answers a next state at the instant at which it is taken, leaves
the queue to the step and takes no free choice. -/
def Obligations.EveryCommandAnswersNext : Prop :=
  ∀ (c : Instr) (s : State),
    Answers (exec c s) fun t => t.pending = s.pending ∧ t.choices = s.choices ∧ t.now = s.now

/-! ### Invariants of every step -/

/-- Reset meets every condition that the invariants below keep. The model's choice: log entry 7 for the input
levels at reset. -/
def Obligations.ResetMeetsTheInvariants : Prop :=
  State.reset.configsValid ∧ State.reset.profilesValid ∧ State.reset.creditsBounded ∧ State.reset.noticesBounded
    ∧ State.reset.queuesBounded ∧ State.reset.queuesShaped ∧ State.reset.estopHolds ∧ State.reset.haltsSettled
    ∧ State.reset.irqFollows ∧ State.reset.slotsSound ∧ State.reset.outputsSound

/-- Every step keeps the channel configuration records and the DEFINED profiles within their ranges (R27, R28, R52, R62). -/
def Obligations.StepKeepsTablesValid : Prop :=
  (∀ s t : State, s.configsValid → step s = .next t → t.configsValid)
  ∧ ∀ s t : State, s.profilesValid → step s = .next t → t.profilesValid

/-- At most 64 requests hold credits, and at most 56 of them came from the main ring (R125); at most 16 notices wait in the
posting queue, and the lost count stays at 255 (R139, R140). -/
def Obligations.StepKeepsCreditsAndNoticesBounded : Prop :=
  (∀ s t : State, s.creditsBounded → step s = .next t → t.creditsBounded)
  ∧ ∀ s t : State, s.noticesBounded → step s = .next t → t.noticesBounded

/-- Every step keeps each segment queue at 8 entries at most (R1, R6), and as its channel's state says (R51). -/
def Obligations.StepKeepsQueuesSound : Prop :=
  (∀ s t : State, s.queuesBounded → step s = .next t → t.queuesBounded)
  ∧ ∀ s t : State, s.queuesShaped → step s = .next t → t.queuesShaped

/-- While the ESTOP latch is set, every channel is HELD or DISABLED (R163). -/
def Obligations.StepKeepsEstopHolding : Prop :=
  ∀ s t : State, s.estopHolds → step s = .next t → t.estopHolds

/-- Pending HALTs wait only for channels still coming to rest, and complete when none is left (R60). -/
def Obligations.StepKeepsHaltsSettled : Prop :=
  ∀ s t : State, s.queuesShaped → s.haltsSettled → step s = .next t → t.haltsSettled

/-- The interrupt request is asserted while a cause is set and INT_ENABLE is 1, and negated otherwise; one message is sent as it
becomes asserted while messages are enabled, and else the legacy interrupt follows the request (R147).
The model's choice: log entry 17 for the count of messages and the sampled setting. -/
def Obligations.StepKeepsIrqFollowing : Prop :=
  (∀ s t : State, s.irqFollows → step s = .next t → t.irqFollows)
  ∧ (∀ s t : State, step s = .next t →
      t.messages = s.messages + if t.irq = true ∧ s.irq = false ∧ s.msiEnabled = true then 1 else 0)
  ∧ ∀ s : State, (s.msiEnabled = true → s.legacyInterrupt = false) ∧ (s.msiEnabled = false → s.legacyInterrupt = s.irq)

/-- At most one EXTERNAL slot is open, XSYNC is driven low exactly while its arrived set is incomplete, and the arrived set is
always a subset of the members (R73, R78, R88). -/
def Obligations.StepKeepsSlotsSound : Prop :=
  ∀ s t : State, s.slotsSound → step s = .next t → t.slotsSound

/-- Every step keeps the outputs as their part state allows (R156, R158, R159, R161, R170 to R172): outside service every
channel is at rest with STEP low, a drain or a failure leaves no channel RUNNING, DWELLING or WAITING and no slot open, and a
held reset leaves every output at its reset level. -/
def Obligations.StepKeepsOutputsSound : Prop :=
  ∀ s t : State, s.queuesShaped → s.slotsSound → s.outputsSound → step s = .next t → t.outputsSound

/-! ### Takes: intake's own part -/

/-- Intake's own checks in their order (R120), and a record they refuse: it is consumed and completed at its take (R121).
BAD_KIND_RECORD is the case of an unknown kind. -/
def Obligations.IntakeRefusesInOrder : Prop :=
  (∀ (ring : Ring) (r : Block),
     (recReq? r = none → intakeRefusal ring r = some .badKind)
     ∧ ∀ k, recReq? r = some k →
       (k.carriedBy ring = false → intakeRefusal ring r = some .wrongRing)
       ∧ (k.carriedBy ring = true →
           ((∃ i < 64, inFields k.fields i = false ∧ blockByte r i ≠ 0) → intakeRefusal ring r = some .badField)
           ∧ ((∀ i < 64, inFields k.fields i = false → blockByte r i = 0) →
               (k.queuedByChannel = true ∧ 8 ≤ recChannel r → intakeRefusal ring r = some .badField)
               ∧ (¬(k.queuedByChannel = true ∧ 8 ≤ recChannel r) → intakeRefusal ring r = none))))
  ∧ ∀ (s : State) (ring : Ring) (r : Block) (status : Status),
    s.inReset = false → takeable s ring = some r → intakeRefusal ring r = some status → s.haltsSettled →
    Answers (exec (takeCommand ring (recReq? r)) s) fun t =>
      t.posting = s.posting ++ [s.done ring (recKind r) (recTag r) status .clear 0 0 (auxNat (s.ring ring).fetch)
        (auxNat (ringCode ring))]
      ∧ TookFrom s t ring
      ∧ t = { s with
          mainRing := t.mainRing, ctrlRing := t.ctrlRing, posting := t.posting, stall := t.stall, irq := t.irq,
          messages := t.messages }

/-- The control record goes first, a main record is taken when its judgment finds no stall cause, and nothing is taken outside
RUNNING (R123, R132); the judgment of the main record follows its order (R127), given as what each condition leads to once
those before it do not hold. -/
def Obligations.ArbiterJudgesInOrder : Prop :=
  (∀ s : State,
     (∀ ring, s.part ≠ .running → takeable s ring = none)
     ∧ (s.part = .running → ∀ r, s.ctrlRing.buffer = .holding r →
         s.mainRing.credits + s.ctrlRing.credits < 64 → takeable s .ctrl = some r ∧ takeable s .main = none)
     ∧ (64 ≤ s.mainRing.credits + s.ctrlRing.credits → takeable s .ctrl = none ∧ takeable s .main = none)
     ∧ (s.part = .running → (∀ r, s.ctrlRing.buffer ≠ .holding r) → ∀ r, s.mainRing.buffer = .holding r →
         (mainStall s r = none → takeable s .main = some r) ∧ (mainStall s r ≠ none → takeable s .main = none)))
  ∧ ∀ (s : State) (r : Block),
    (64 ≤ s.mainRing.credits + s.ctrlRing.credits ∨ 56 ≤ s.mainRing.credits → mainStall s r = some .credits)
    ∧ (s.mainRing.credits + s.ctrlRing.credits < 64 → s.mainRing.credits < 56 →
        (intakeRefusal .main r ≠ none → mainStall s r = none)
        ∧ ∀ k, recReq? r = some k → intakeRefusal .main r = none →
          (ownerRefusal k s r ≠ none → mainStall s r = none)
          ∧ (ownerRefusal k s r = none →
              (k = .fence → 0 < s.mainRing.credits → mainStall s r = some .fence)
              ∧ (k ∈ [.move, .dwell, .setPosition, .mark] → (s.chan (recChan r)).queue.length = 8 →
                  mainStall s r = some .queue)
              ∧ (k = .rendezvous → ∀ c, hasChan (recMask r 8) c = true → (s.chan c).queue.length = 8 →
                  mainStall s r = some .queue)
              ∧ (k = .rendezvous → (∀ c, hasChan (recMask r 8) c = true → (s.chan c).queue.length < 8) →
                  (∀ i : SlotIx, (s.slots[i]).isSome = true) → mainStall s r = some .slot)
              ∧ (k = .rendezvous → (∀ c, hasChan (recMask r 8) c = true → (s.chan c).queue.length < 8) →
                  (∃ i : SlotIx, s.slots[i] = none) → blockByte r 9 = 1 → externalOpen s = true →
                  mainStall s r = some .external)
              ∧ (k = .rendezvous → (∀ c, hasChan (recMask r 8) c = true → (s.chan c).queue.length < 8) →
                  (∃ i : SlotIx, s.slots[i] = none) → ¬(blockByte r 9 = 1 ∧ externalOpen s = true) →
                  mainStall s r = none)
              ∧ (k ∈ [.move, .dwell, .setPosition, .mark] → (s.chan (recChan r)).queue.length < 8 →
                  mainStall s r = none)
              ∧ (k = .fence → s.mainRing.credits = 0 → mainStall s r = none)
              ∧ (k ∈ [.setProfile, .nop] → mainStall s r = none)))

/-- A main record whose judgment finds a stall cause stays HOLDING, untaken and unconsumed, and STAT shows the cause (R127).
The model's choice: log entry 9 for the command of a take that the arbiter does not make. -/
def Obligations.StalledRecordStays : Prop :=
  ∀ (s : State) (r : Block) (cause : StallCause),
    s.inReset = false → s.part = .running → ctrlTakeable s = none → s.mainRing.buffer = .holding r →
    mainStall s r = some cause → s.haltsSettled →
    Answers (exec (takeCommand .main (recReq? r)) s) fun t =>
      t.stall = cause ∧ t.statWord.extractLsb' 8 3 = BitVec.ofNat 3 cause.code
      ∧ t = { s with stall := cause, irq := t.irq, messages := t.messages }

/-! ### Takes: the main ring -/

/-- FENCE (R130) is taken only when no main-ring request holds a credit, and completes OK at that instant. NOP (R131)
completes OK at the instant it is taken, with its slot in aux A and its ring in aux B, and changes nothing else; without a
credit for its ring it waits. -/
def Obligations.FenceAndNopCompleteAtOnce : Prop :=
  (∀ (s : State) (r : Block), Taken s .main .fence r → s.haltsSettled →
    s.mainRing.credits = 0
    ∧ Answers (exec (.fence .main) s) fun t =>
      t.posting = s.posting ++ [s.done .main ReqKind.fence.code (recTag r) .ok .clear 0 0 0 0]
      ∧ TookFrom s t .main
      ∧ t = { s with
          mainRing := t.mainRing, ctrlRing := t.ctrlRing, posting := t.posting, stall := t.stall, irq := t.irq,
          messages := t.messages })
  ∧ (∀ (s : State) (ring : Ring) (r : Block), Taken s ring .nop r → s.haltsSettled →
    Answers (exec (.nop ring) s) fun t =>
      t.posting = s.posting ++ [s.done ring ReqKind.nop.code (recTag r) .ok .clear 0 0 (auxNat (s.ring ring).fetch)
        (auxNat (ringCode ring))]
      ∧ TookFrom s t ring
      ∧ t = { s with
          mainRing := t.mainRing, ctrlRing := t.ctrlRing, posting := t.posting, stall := t.stall, irq := t.irq,
          messages := t.messages })
  ∧ ∀ (s : State) (ring : Ring), creditFor s ring = false → s.haltsSettled →
    Answers (exec (.nop ring) s) fun t => t = { s with stall := t.stall, irq := t.irq, messages := t.messages }

/-- SET_PROFILE (R28): with values in range the named profile becomes DEFINED with them; otherwise it is refused with
BAD_FIELD and the table is unchanged. -/
def Obligations.SetProfileWritesOrRefuses : Prop :=
  ∀ (s : State) (r : Block), Taken s .main .setProfile r → s.haltsSettled →
    let vs := blockField r 12 4
    let vc := blockField r 16 4
    let a := blockField r 20 3
    let b := blockField r 24 3
    let inRange := (blockByte r 8).toNat ≤ 15 ∧ 1 ≤ vs ∧ vs ≤ vc ∧ vc ≤ 400000 ∧ 1 ≤ a ∧ a ≤ 16777215 ∧ 1 ≤ b
      ∧ b ≤ 16777215
    (inRange → ∀ i : ProfIx, i.val = (blockByte r 8).toNat →
      Answers (exec (.setProfile .main) s) fun t =>
        t.profiles[i] = some { vs := vs, vc := vc, a := a, b := b }
        ∧ (∀ j : ProfIx, j ≠ i → t.profiles[j] = s.profiles[j])
        ∧ t.posting = s.posting ++ [s.done .main ReqKind.setProfile.code (recTag r) .ok .clear 0 0 (auxNat i.val)
            (if (s.profiles[i]).isSome then 1 else 0)]
        ∧ TookFrom s t .main
        ∧ t = { s with
            profiles := t.profiles, mainRing := t.mainRing, ctrlRing := t.ctrlRing, posting := t.posting,
            stall := t.stall, irq := t.irq, messages := t.messages })
    ∧ (¬inRange →
      Answers (exec (.setProfile .main) s) fun t =>
        t.posting = s.posting ++ [s.done .main ReqKind.setProfile.code (recTag r) .badField .clear 0 0 0 0]
        ∧ TookFrom s t .main
        ∧ t = { s with
            mainRing := t.mainRing, ctrlRing := t.ctrlRing, posting := t.posting, stall := t.stall, irq := t.irq,
            messages := t.messages })

/-- The field checks of MOVE, DWELL, SET_POSITION and MARK, and the entry that a record makes (R3, R7, R8). -/
def Obligations.QueuedKindsFieldChecks : Prop :=
  ∀ (s : State) (r : Block),
    let ve := blockField r 16 4
    let chain := blockByte r 9
    (∀ i : ProfIx, i.val = (blockByte r 10).toNat → ∀ p, s.profiles[i] = some p → ∀ mode,
      moveMode? (blockByte r 8) = some mode → p.vc ≤ (s.chan (recChan r)).cfg.maxRate →
      (chain = 1 → 1 ≤ ve → ve ≤ 400000 →
        recEntry? .move s r = some (.move {
          tag := recTag r, mode := mode, amount := blockWord r 12, exitRate := some ve, profile := p,
          overridden := false }))
      ∧ (chain = 0 → ve = 0 →
        recEntry? .move s r = some (.move {
          tag := recTag r, mode := mode, amount := blockWord r 12, exitRate := none, profile := p,
          overridden := false })))
    ∧ (moveMode? (blockByte r 8) = none → recEntry? .move s r = none)
    ∧ (15 < (blockByte r 10).toNat → recEntry? .move s r = none)
    ∧ (∀ i : ProfIx, i.val = (blockByte r 10).toNat → s.profiles[i] = none → recEntry? .move s r = none)
    ∧ (∀ i : ProfIx, i.val = (blockByte r 10).toNat → ∀ p, s.profiles[i] = some p →
        (s.chan (recChan r)).cfg.maxRate < p.vc → recEntry? .move s r = none)
    ∧ (chain ≠ 0 → chain ≠ 1 → recEntry? .move s r = none)
    ∧ (chain = 1 → ¬(1 ≤ ve ∧ ve ≤ 400000) → recEntry? .move s r = none)
    ∧ (chain = 0 → ve ≠ 0 → recEntry? .move s r = none)
    ∧ (blockField r 8 3 = 0 → recEntry? .dwell s r = none)
    ∧ (blockField r 8 3 ≠ 0 → recEntry? .dwell s r = some (.dwell (recTag r) (blockField r 8 3)))
    ∧ recEntry? .setPosition s r = some (.setPosition (recTag r) (blockWord r 8))
    ∧ (recMask r 8 &&& recMask r 9 ≠ 0 → recEntry? .mark s r = none)
    ∧ (recMask r 8 &&& recMask r 9 = 0 → recEntry? .mark s r = some (.mark (recTag r) (recMask r 8) (recMask r 9)))

/-- MOVE, DWELL, SET_POSITION and MARK refused (R5, R7, R8): BAD_FIELD before the queue is looked at, CHANNEL_OFF for a
DISABLED channel, CHANNEL_HELD for a HELD or STOPPING one, with the channel's position, in which a leading edge of that
instant counts (R33, log entry 28). The model's choice: log entry 12 for the channel of a closed queue. -/
def Obligations.QueuedKindsRefused : Prop :=
  ∀ (s : State) (k : ReqKind) (r : Block), k ∈ [ReqKind.move, .dwell, .setPosition, .mark] → Taken s .main k r →
    s.haltsSettled →
    let c := recChan r
    let record (status : Status) (channel : Byte) (position : Word) :=
      s.done .main k.code (recTag r) status .clear channel position 0 0
    let refusedWith (record : Cpl) :=
      Answers (exec (takeCommand .main (some k)) s) fun t =>
        t.posting = s.posting ++ [record]
        ∧ TookFrom s t .main
        ∧ t = { s with
            mainRing := t.mainRing, ctrlRing := t.ctrlRing, posting := t.posting, stall := t.stall, irq := t.irq,
            messages := t.messages }
    (recEntry? k s r = none → refusedWith (record .badField 0 0))
    ∧ (recEntry? k s r ≠ none → (s.chan c).state = .disabled →
        refusedWith ((record .channelOff (chanByte c) (s.position c)).showing s c))
    ∧ (recEntry? k s r ≠ none → (s.chan c).state = .held ∨ (s.chan c).state = .stopping →
        refusedWith ((record .channelHeld (chanByte c) (s.position c)).showing s c))

/-- MOVE, DWELL, SET_POSITION and MARK admitted to a channel that has work (R5): the entry joins the tail, and nothing else of
the channel changes. -/
def Obligations.QueuedKindsJoinTheTail : Prop :=
  ∀ (s : State) (k : ReqKind) (r : Block) (e : Entry), k ∈ [ReqKind.move, .dwell, .setPosition, .mark] →
    Taken s .main k r → s.haltsSettled → recEntry? k s r = some e →
    (s.chan (recChan r)).state ∈ [ChanState.running, .dwelling, .waiting] →
    Answers (exec (takeCommand .main (some k)) s) fun t =>
      t.chan (recChan r) = { s.chan (recChan r) with queue := (s.chan (recChan r)).queue ++ [e] }
      ∧ (∀ d, d ≠ recChan r → t.chan d = s.chan d)
      ∧ TookFrom s t .main
      ∧ t = { s with
          chans := t.chans, mainRing := t.mainRing, ctrlRing := t.ctrlRing, stall := t.stall, irq := t.irq,
          messages := t.messages }

/-- A MOVE that reaches the head of an IDLE channel and calls for the other DIR level starts with SETTLE (R13, R34). -/
def Obligations.MoveFromIdleSettles : Prop :=
  ∀ (s : State) (r : Block) (m : MoveEntry), Taken s .main .move r → s.haltsSettled → s.queuesShaped →
    recEntry? .move s r = some (.move m) →
    let c := recChan r
    let ch := s.chan c
    let x := resolveMove m (s.position c).toInt
    ch.state = .idle → x.steps ≠ 0 → softLimitOk ch.cfg x.endPos = true → limitBlocks ch x.positive = false →
    ch.pgn.dirHigh ≠ dirLevelFor ch.cfg.dirPolarity x.positive →
    Answers (exec (.move .main) s) fun t =>
      (t.chan c).state = .running ∧ (t.chan c).queue = [.move m] ∧ (t.chan c).resolved = some x
      ∧ (t.chan c).binding = (if m.exitRate.isSome then .pending else .notChained)
      ∧ (t.chan c).pgn.phase = .settle ∧ (t.chan c).pgn.settleEnd = some (s.now + 40 * ch.cfg.dirSettle)
      ∧ (t.chan c).pgn.dirHigh = dirLevelFor ch.cfg.dirPolarity x.positive
      ∧ (t.chan c).pgn.remaining = x.steps ∧ (t.chan c).pgn.emitted = 0 ∧ (t.chan c).pgn.schedule = none
      ∧ t.position c = s.position c ∧ (t.chan c).pgn.pulseEnd = ch.pgn.pulseEnd ∧ (t.chan c).cfg = ch.cfg
      ∧ (∀ d, d ≠ c → t.chan d = s.chan d)
      ∧ TookFrom s t .main
      ∧ t = { s with
          chans := t.chans, mainRing := t.mainRing, ctrlRing := t.ctrlRing, stall := t.stall, irq := t.irq,
          messages := t.messages }

/-- A MOVE that reaches the head of an IDLE channel with DIR already right emits its first step at once at Vs (R13, R31 to R33,
R35), as a scheduled step due at that instant would be, or, under the hold after an abrupt stop, schedules it for the end of
that hold (R45, log entry 13). The records of that instant that count the step (R33): log entry 28. -/
def Obligations.MoveFromIdleSteps : Prop :=
  ∀ (s : State) (r : Block) (m : MoveEntry), Taken s .main .move r → s.haltsSettled → s.queuesShaped →
    recEntry? .move s r = some (.move m) →
    let c := recChan r
    let ch := s.chan c
    let x := resolveMove m (s.position c).toInt
    let next := if x.positive then s.position c + 1 else s.position c - 1
    let vsSq := m.profile.vs ^ 2
    ch.state = .idle → x.steps ≠ 0 → softLimitOk ch.cfg x.endPos = true → limitBlocks ch x.positive = false →
    ch.pgn.dirHigh = dirLevelFor ch.cfg.dirPolarity x.positive →
    let zero := boundaryZero { ch with
      state := .running, queue := [.move m], resolved := some x
      binding := if m.exitRate.isSome then .pending else .notChained
      watchHalt := false
      pgn := { ch.pgn with
        rateSq := 0, phase := .none, remaining := x.steps, emitted := 0, schedule := none, stopMode := .none,
        settleEnd := none, lastEnd := none } } vsSq
    let started (due : Nat) : Channel :=
      { zero with pgn := { zero.pgn with schedule := some { due := due, rateSq := vsSq } } }
    (s.now < holdUntil ch → Answers (exec (.move .main) s) fun t =>
      t.chan c = started (holdUntil ch) ∧ (∀ d, d ≠ c → t.chan d = s.chan d) ∧ TookFrom s t .main
      ∧ t = { s with
          chans := t.chans, mainRing := t.mainRing, ctrlRing := t.ctrlRing, stall := t.stall, irq := t.irq,
          messages := t.messages })
    ∧ (holdUntil ch ≤ s.now → ∃ u : State, exec (.move .main) s = exec (.stepEmission c) u
      ∧ u.chan c = started s.now ∧ (∀ d, d ≠ c → u.chan d = s.chan d) ∧ TookFrom s u .main
      ∧ u = { s with chans := u.chans, mainRing := u.mainRing, ctrlRing := u.ctrlRing })
    ∧ (holdUntil ch ≤ s.now → NoneFires s c next x.positive → Answers (exec (.move .main) s) fun t =>
      t.position c = next ∧ (t.chan c).pgn.pulseEnd = some (s.now + 40 * ch.cfg.pulseWidth)
      ∧ (t.chan c).pgn.rateSq = vsSq ∧ (t.chan c).pgn.emitted = 1 ∧ (t.chan c).pgn.remaining = x.steps - 1
      ∧ (t.chan c).pgn.dirHigh = ch.pgn.dirHigh ∧ Rearmed s t c next
      ∧ t.chan c = { zero with binding := (t.chan c).binding, pgn := (t.chan c).pgn }
      ∧ t.posting = s.posting.map (fun r => r.atStep c s.now next)
      ∧ (∀ d, d ≠ c → t.chan d = s.chan d)
      ∧ TookFrom s t .main
      ∧ t = { s with
          chans := t.chans, watches := t.watches, posting := t.posting, mainRing := t.mainRing, ctrlRing := t.ctrlRing,
          stall := t.stall, irq := t.irq, messages := t.messages })

/-- A MOVE that fails a start check on an IDLE channel emits no step, completes with RANGE or LIMIT and holds the channel (R14);
one that resolves to zero distance completes OK and leaves the channel IDLE (R13). Nothing else of the channel changes. -/
def Obligations.MoveFromIdleFailsOrIsEmpty : Prop :=
  ∀ (s : State) (r : Block) (m : MoveEntry), Taken s .main .move r → s.haltsSettled → s.queuesShaped →
    recEntry? .move s r = some (.move m) →
    let c := recChan r
    let ch := s.chan c
    let x := resolveMove m (s.position c).toInt
    let endsIn (status : Status) (state : ChanState) :=
      Answers (exec (.move .main) s) fun t =>
        t.chan c = { ch with
          state := state, queue := [], resolved := none, binding := .notChained, watchHalt := false }
        ∧ t.posting = s.posting ++ [s.done .main ReqKind.move.code m.tag status .clear (chanByte c) (s.position c) 0 0]
        ∧ (∀ d, d ≠ c → t.chan d = s.chan d)
        ∧ TookFrom s t .main
        ∧ t = { s with
            chans := t.chans, posting := t.posting, mainRing := t.mainRing, ctrlRing := t.ctrlRing, stall := t.stall,
            irq := t.irq, messages := t.messages }
    ch.state = .idle →
    (x.steps = 0 → endsIn .ok .idle)
    ∧ (x.steps ≠ 0 → softLimitOk ch.cfg x.endPos = false → endsIn .range .held)
    ∧ (x.steps ≠ 0 → softLimitOk ch.cfg x.endPos = true → limitBlocks ch x.positive = true → endsIn .limit .held)

/-- DWELL, SET_POSITION and MARK taken on an IDLE channel act at once (R16 to R18, R102): the DWELL timer starts, the position
is loaded and the COOLING watches are tested, the AUX latch is written; the channel is else as it was. And the entries of a
channel at rest from the head on (R9): a SET_POSITION, a MARK and a MOVE of zero distance take no time and complete one
after another, and the first entry that takes time holds the head with the others behind it (R13, R14, R19). -/
def Obligations.OtherEntriesFromIdle : Prop :=
  (∀ (s : State) (r : Block), s.haltsSettled → s.queuesShaped → (s.chan (recChan r)).state = .idle →
    let c := recChan r
    let ch := s.chan c
    (Taken s .main .dwell r → blockField r 8 3 ≠ 0 →
      Answers (exec (.dwell .main) s) fun t =>
        t.chan c = { ch.emptied .dwelling with
          queue := [.dwell (recTag r) (blockField r 8 3)], dwellStart := some s.now }
        ∧ (∀ d, d ≠ c → t.chan d = s.chan d) ∧ TookFrom s t .main
        ∧ t = { s with
            chans := t.chans, mainRing := t.mainRing, ctrlRing := t.ctrlRing, stall := t.stall, irq := t.irq,
            messages := t.messages })
    ∧ (Taken s .main .setPosition r →
      Answers (exec (.setPosition .main) s) fun t =>
        t.chan c = { ch.emptied .idle with pgn := { ch.pgn with position := blockWord r 8 } }
        ∧ Rearmed s t c (blockWord r 8)
        ∧ t.posting = s.posting ++ [s.done .main ReqKind.setPosition.code (recTag r) .ok .clear (chanByte c)
            (blockWord r 8) (s.position c) 0]
        ∧ (∀ d, d ≠ c → t.chan d = s.chan d) ∧ TookFrom s t .main
        ∧ t = { s with
            chans := t.chans, watches := t.watches, posting := t.posting, mainRing := t.mainRing,
            ctrlRing := t.ctrlRing, stall := t.stall, irq := t.irq, messages := t.messages })
    ∧ (Taken s .main .mark r → recMask r 8 &&& recMask r 9 = 0 →
      Answers (exec (.mark .main) s) fun t =>
        t.aux = (s.aux ||| recMask r 8) &&& ~~~(recMask r 9)
        ∧ t.chan c = ch.emptied .idle
        ∧ t.posting = s.posting ++ [s.done .main ReqKind.mark.code (recTag r) .ok .clear (chanByte c) (s.position c)
            (auxMask t.aux) 0]
        ∧ (∀ d, d ≠ c → t.chan d = s.chan d) ∧ TookFrom s t .main
        ∧ t = { s with
            chans := t.chans, aux := t.aux, posting := t.posting, mainRing := t.mainRing, ctrlRing := t.ctrlRing,
            stall := t.stall, irq := t.irq, messages := t.messages }))
  ∧ ∀ (s : State) (c : Chan) (rest : List Entry),
    let ch := s.chan c
    let record (k : ReqKind) (tag : Word) (position auxA : Word) :=
      s.done .main k.code tag .ok .clear (chanByte c) position auxA 0
    runHead c [] s = (s.setChan c (ch.emptied .idle), [])
    ∧ (∀ tag value, ∃ u, runHead c (.setPosition tag value :: rest) s = runHead c rest u
        ∧ u.chan c = { ch with pgn := { ch.pgn with position := value } } ∧ (∀ d, d ≠ c → u.chan d = s.chan d)
        ∧ Rearmed s u c value ∧ u.posting = s.posting ++ [record .setPosition tag value (s.position c)]
        ∧ u = { s with chans := u.chans, watches := u.watches, posting := u.posting })
    ∧ (∀ tag set clear,
        let aux := (s.aux ||| set) &&& ~~~clear
        runHead c (.mark tag set clear :: rest) s
          = runHead c rest { s with
              aux := aux, posting := s.posting ++ [record .mark tag (s.position c) (auxMask aux)] })
    ∧ (∀ tag duration, runHead c (.dwell tag duration :: rest) s
        = (s.setChan c { ch.emptied .dwelling with queue := .dwell tag duration :: rest, dwellStart := some s.now }, []))
    ∧ (∀ i, runHead c (.marker i :: rest) s
        = (s.setChan c { ch.emptied .waiting with queue := .marker i :: rest }, [.arrive c i]))
    ∧ ∀ m : MoveEntry,
      let x := resolveMove m (s.position c).toInt
      let a := runHead c (.move m :: rest) s
      let t := a.1
      (x.steps = 0 → a = runHead c rest { s with posting := s.posting ++ [record .move m.tag (s.position c) 0] })
      ∧ (x.steps ≠ 0 → softLimitOk ch.cfg x.endPos = true → limitBlocks ch x.positive = false →
          (t.chan c).state = .running ∧ (t.chan c).queue = .move m :: rest ∧ (t.chan c).resolved = some x)
      ∧ (∀ status, x.steps ≠ 0 → (softLimitOk ch.cfg x.endPos = false ∧ status = .range)
            ∨ (softLimitOk ch.cfg x.endPos = true ∧ limitBlocks ch x.positive = true ∧ status = .limit) →
          t = { s.setChan c (ch.emptied .held) with
            posting := s.posting ++ rest.filterMap (cancelled? t c)
              ++ [s.done .main ReqKind.move.code m.tag status .clear (chanByte c) (s.position c) 0 0] }
          ∧ a.2 = rest.filterMap (withdrawn? c))

/-- RENDEZVOUS refused (R74, R75): BAD_FIELD for its fields, CHANNEL_OFF or CHANNEL_HELD for closed members, with the mask of
the closed members in aux A and the lowest of them as its channel, in whose position a leading edge of that instant counts
(R33, log entry 28). -/
def Obligations.RendezvousRefused : Prop :=
  ∀ (s : State) (r : Block), Taken s .main .rendezvous r → s.haltsSettled →
    let members := recMask r 8
    let fieldsOk := members ≠ 0 ∧ (blockByte r 9 = 0 ∨ blockByte r 9 = 1) ∧ blockField r 12 4 ≤ 65535
    let closed := maskOf fun c => hasChan members c && !(s.chan c).isOpen
    let first := lowestChan closed
    let record (status : Status) (channel : Byte) (position auxA : Word) :=
      s.done .main ReqKind.rendezvous.code (recTag r) status .clear channel position auxA 0
    let refusedWith (record : Cpl) :=
      Answers (exec (.rendezvous .main) s) fun t =>
        t.posting = s.posting ++ [record]
        ∧ TookFrom s t .main
        ∧ t = { s with
            mainRing := t.mainRing, ctrlRing := t.ctrlRing, posting := t.posting, stall := t.stall, irq := t.irq,
            messages := t.messages }
    (¬fieldsOk → refusedWith (record .badField 0 0 0))
    ∧ (fieldsOk → closed ≠ 0 → (∃ c, hasChan members c = true ∧ (s.chan c).state = .disabled) →
        refusedWith ((record .channelOff (chanByte first) (s.position first) (auxMask closed)).showing s first))
    ∧ (fieldsOk → closed ≠ 0 → (∀ c, hasChan members c = true → (s.chan c).state ≠ .disabled) →
        refusedWith ((record .channelHeld (chanByte first) (s.position first) (auxMask closed)).showing s first))

/-- RENDEZVOUS admitted while some member has work (R77 to R79): the lowest FREE slot opens at the tail of the open list, every
member gets a MARKER at its tail, an EXTERNAL slot drives XSYNC low, and the IDLE members have arrived at once, which makes the
slot GATHERING and starts its timer. And an arrival by the slot's state (R78, R79, R80, R89): the first makes an OPEN slot
GATHERING and starts the timer, a later one leaves the timer as it is, the one that completes the arrived set releases the slot
or makes it SYNCING, and a repeated or foreign arrival, or one at a FREE slot, leaves the table as it is. The arrival is that of
a MARKER that becomes the head as a DWELL or an unbound segment ends, or of an entry admitted to an IDLE channel. The model's
choice: log entry 5 for the order within one instant, log entry 14 for the length of the timer. -/
def Obligations.RendezvousOpensAndGathers : Prop :=
  (∀ (s : State) (r : Block) (i : SlotIx), Taken s .main .rendezvous r → s.haltsSettled → s.queuesShaped →
    rendezvousFieldsOk r = true →
    (∀ c, hasChan (recMask r 8) c = true → (s.chan c).state ∈ [ChanState.idle, .running, .dwelling, .waiting]) →
    (∃ c, hasChan (recMask r 8) c = true ∧ (s.chan c).state ≠ .idle) →
    s.slots[i] = none → (∀ j : SlotIx, j < i → (s.slots[j]).isSome = true) →
    let members := recMask r 8
    let timeout := blockField r 12 4
    let there := maskOf fun c => hasChan members c && (s.chan c).state == .idle
    Answers (exec (.rendezvous .main) s) fun t =>
      t.slots[i] = some {
        state := if there = 0 then .opened else .gathering
        tag := recTag r, members := members, arrived := there, timeout := timeout
        expiry := if there = 0 ∨ timeout = 0 then none else some (s.now + 40000 * timeout)
        external := blockByte r 9 == 1 }
      ∧ (∀ j : SlotIx, j ≠ i → t.slots[j] = s.slots[j])
      ∧ t.openList = s.openList ++ [i]
      ∧ t.xsyncLow = (s.xsyncLow || blockByte r 9 == 1)
      ∧ (∀ c, hasChan members c = true → (s.chan c).state = .idle →
          t.chan c = { (s.chan c).emptied .waiting with queue := [.marker i] })
      ∧ (∀ c, hasChan members c = true → (s.chan c).state ≠ .idle →
          t.chan c = { s.chan c with queue := (s.chan c).queue ++ [.marker i] })
      ∧ (∀ c, hasChan members c = false → t.chan c = s.chan c)
      ∧ TookFrom s t .main
      ∧ t = { s with
          slots := t.slots, openList := t.openList, xsyncLow := t.xsyncLow, chans := t.chans, mainRing := t.mainRing,
          ctrlRing := t.ctrlRing, stall := t.stall, irq := t.irq, messages := t.messages })
  ∧ (∀ (s : State) (c : Chan) (i : SlotIx),
    let a := takeArrival c i s
    (s.slots[i] = none → a = (s, []))
    ∧ (Act.settle (s, [.arrive c i]) = settleRounds 19 a.2 a.1)
    ∧ ∀ sl, s.slots[i] = some sl →
      let arrived := sl.arrived ||| chanBit c
      let gathered : Slot := { sl with
        arrived := arrived
        state := if sl.state = .opened then .gathering else sl.state
        expiry :=
          if sl.state = .opened then if sl.timeout = 0 then none else some (s.now + 40000 * sl.timeout)
          else sl.expiry }
      (hasChan sl.members c = false ∨ hasChan sl.arrived c = true → a = (s, []))
      ∧ (hasChan sl.members c = true → hasChan sl.arrived c = false →
        (arrived ≠ sl.members → a = (s.setSlot i (some gathered), []))
        ∧ (arrived = sl.members → sl.external = true → a = ({ s.setSlot i (some { gathered with state := .syncing }) with
            xsyncLow := false, xsyncRun := if s.xsync then some s.now else none }, []))
        ∧ (arrived = sl.members → sl.external = false → a = releaseSlot i (s.setSlot i (some gathered)))))
  ∧ ∀ (s : State) (c : Chan) (i : SlotIx) (sl : Slot), s.inReset = false → s.haltsSettled →
    let ch := s.chan c
    s.slots[i] = some sl → hasChan sl.members c = true → hasChan sl.arrived c = false →
    sl.arrived ||| chanBit c ≠ sl.members →
    let arrives (t : State) :=
      t.slots = (takeArrival c i s).1.slots ∧ (t.chan c).state = .waiting ∧ (∀ d, d ≠ c → t.chan d = s.chan d)
      ∧ t = { s with
          slots := t.slots, chans := t.chans, posting := t.posting, stall := t.stall, irq := t.irq,
          messages := t.messages }
    (∀ tag duration start behind, ch.state = .dwelling → ch.queue = .dwell tag duration :: .marker i :: behind →
        ch.dwellStart = some start → start + 40 * duration ≤ s.now →
        Answers (exec (.dwellExpiry c) s) fun t => arrives t ∧ (t.chan c).queue = .marker i :: behind)
    ∧ ∀ m e behind, ch.state = .running → ch.queue = .move m :: .marker i :: behind → ch.headBound = false →
      ch.pgn.remaining = 0 → ch.pgn.lastEnd = some e → e ≤ s.now →
      Answers (exec (.segmentEnd c) s) fun t => arrives t ∧ (t.chan c).queue = .marker i :: behind

/-- RENDEZVOUS admitted while every member is IDLE (R77, R78, R80, R89): without EXTERNAL the slot is released at once
and the RENDEZVOUS completes OK; with EXTERNAL the slot becomes SYNCING, XSYNC is released and its qualifier starts. The
model's choice: log entries 5, 22 and 28, and log entry 14 for the expiry instant, R79's "as counted by the motion clock" read
as that many elapsed microseconds of 40 cycles. RendezvousOpensAndGathers has the members of mixed state. -/
def Obligations.RendezvousOfIdleMembers : Prop :=
  ∀ (s : State) (r : Block) (i : SlotIx), Taken s .main .rendezvous r → s.haltsSettled → s.queuesShaped →
    rendezvousFieldsOk r = true → (∀ c, hasChan (recMask r 8) c = true → (s.chan c).state = .idle) →
    s.slots[i] = none → (∀ j : SlotIx, j < i → (s.slots[j]).isSome = true) → i ∉ s.openList →
    let members := recMask r 8
    let first := lowestChan members
    Answers (exec (.rendezvous .main) s) fun t =>
      (blockByte r 9 = 0 →
        t.slots[i] = none ∧ t.openList = s.openList
        ∧ (∀ c, hasChan members c = true → t.chan c = (s.chan c).emptied .idle)
        ∧ t.posting = s.posting ++ [(s.done .main ReqKind.rendezvous.code (recTag r) .ok .clear (chanByte first)
            (s.position first) (auxNat i.val) (auxMask members)).showing s first]
        ∧ t.xsyncLow = s.xsyncLow ∧ t.xsyncRun = s.xsyncRun)
      ∧ (blockByte r 9 = 1 →
        (∃ sl, t.slots[i] = some sl ∧ sl.state = .syncing ∧ sl.arrived = members ∧ sl.members = members
          ∧ sl.external = true ∧ sl.tag = recTag r
          ∧ sl.expiry = (if blockField r 12 4 = 0 then none else some (s.now + 40000 * blockField r 12 4)))
        ∧ t.openList = s.openList ++ [i] ∧ t.xsyncLow = false
        ∧ t.xsyncRun = (if s.xsync then some s.now else none)
        ∧ (∀ c, hasChan members c = true → t.chan c = { (s.chan c).emptied .waiting with queue := [.marker i] })
        ∧ t.posting = s.posting)
      ∧ (∀ c, hasChan members c = false → t.chan c = s.chan c)
      ∧ (∀ j : SlotIx, j ≠ i → t.slots[j] = s.slots[j])
      ∧ TookFrom s t .main
      ∧ t = { s with
          slots := t.slots, openList := t.openList, xsyncLow := t.xsyncLow, xsyncRun := t.xsyncRun, chans := t.chans,
          posting := t.posting, mainRing := t.mainRing, ctrlRing := t.ctrlRing, stall := t.stall, irq := t.irq,
          messages := t.messages }

/-! ### Takes: the control ring -/

/-- A halt order acts by its mode and the channel state it finds, and on no other channel (R53): the entries behind the head
complete CANCELLED in queue order, MARKERs are withdrawn (R10, R11, R55, R56), a head DWELL completes HALTED with the time
dwelt and a head MOVE as R57 says, kept back while STEP is high; a RUNNING channel whose head has emitted a step is
STOPPING, its step withdrawn or rescheduled from the last one (R26, R43). And the record and the report of an entry that a flush
removes: CANCELLED with the position at the flush, and a withdrawal for a MARKER (R10, R11, R55). The model's choice: log entry
13 for the head under the hold of R45, log entry 14 for the part of a microsecond that a halted DWELL has dwelt, log entry 24 for
the hold counted from the last fall of STEP, log entry 25 for the counts cleared at rest, and log entry 28 for a leading edge of
the flush's instant. -/
def Obligations.HaltOrderActsByState : Prop :=
  (∀ (c : Chan) (mode : StopMode) (byWatch : Bool) (s : State), (s.chan c).shaped = true → mode ≠ .none →
    let a := haltOrder c mode byWatch s
    let t := a.1
    let ch := s.chan c
    let found := ch.state
    let behind := ch.queue.tail
    let watched := ch.watchHalt || byWatch
    let flushed := behind.filterMap (cancelled? t c)
    let withdrawn := behind.filterMap (withdrawn? c)
    let ended := if ch.pgn.remaining = 0 then Status.ok else .halted
    let flags (m : MoveEntry) : Flags := {
      unbound := ch.binding == .unbound, short := false, overridden := m.overridden, watchHalt := watched }
    let record (m : MoveEntry) := s.done .main ReqKind.move.code m.tag ended (flags m) (chanByte c) (s.position c)
      (auxNat ch.pgn.emitted) (auxNat (if ch.pgn.emitted = 0 then 0 else isqrt ch.pgn.rateSq))
    let rested : Pgn := { ch.pgn with
      rateSq := 0, phase := .none, remaining := 0, emitted := 0, schedule := none, stopMode := .none,
      settleEnd := none, lastEnd := none }
    let heldWith (pgn : Pgn) (kept : Option Kept) : Channel :=
      { ch.emptied .held with dwellStart := none, pgn := pgn, kept := kept }
    (∀ d, d ≠ c → t.chan d = s.chan d)
    ∧ t = { s with chans := t.chans, posting := t.posting }
    ∧ (found = .disabled ∨ found = .held → a = (s, []))
    ∧ (found = .idle → t.chan c = heldWith ch.pgn ch.kept ∧ t.posting = s.posting ∧ a.2 = [])
    ∧ (found = .dwelling → ∀ tag duration, ch.queue = .dwell tag duration :: behind →
        t.chan c = heldWith ch.pgn ch.kept ∧ a.2 = withdrawn
        ∧ ∀ start, ch.dwellStart = some start →
          t.posting = s.posting ++ flushed ++ [s.done .main ReqKind.dwell.code tag .halted
            { Flags.clear with watchHalt := watched } (chanByte c) (s.position c) (auxNat ((s.now - start) / 40)) 0])
    ∧ (found = .waiting → ∀ i, ch.queue = .marker i :: behind →
        t.chan c = heldWith ch.pgn ch.kept ∧ a.2 = withdrawn ++ [.withdraw c i] ∧ t.posting = s.posting ++ flushed)
    ∧ (found = .running ∨ found = .stopping → mode = .abrupt → ∀ m, ch.queue = .move m :: behind →
        a.2 = withdrawn
        ∧ (ch.pgn.pulseEnd = none → t.posting = s.posting ++ flushed ++ [record m]
            ∧ t.chan c = heldWith { rested with stopHold := ch.pgn.fell } none)
        ∧ (ch.pgn.pulseEnd ≠ none → t.posting = s.posting ++ flushed
            ∧ t.chan c = heldWith
                { ch.pgn with
                  stopMode := .abrupt, phase := .none, schedule := none, settleEnd := none, lastEnd := none }
                (some {
                  tag := m.tag, status := ended, flags := flags m, steps := auxNat ch.pgn.emitted,
                  rate := auxNat (if ch.pgn.emitted = 0 then 0 else isqrt ch.pgn.rateSq) })))
    ∧ (found = .running → mode = .decel → ∀ m, ch.queue = .move m :: behind →
        let vsSq := m.profile.vs ^ 2
        let slower := max (ch.pgn.rateSq - 2 * m.profile.b) vsSq
        let last := ch.pgn.remaining = 0 ∨ ch.pgn.rateSq ≤ vsSq
        let stopping (binding : Binding) (schedule : Option Sched) (lastEnd : Option Nat) : Channel :=
          { ch with
            state := .stopping, queue := [.move m], binding := binding, watchHalt := watched
            pgn := { ch.pgn with
              stopMode := .decel, phase := .none, schedule := schedule, settleEnd := none, lastEnd := lastEnd } }
        a.2 = withdrawn
        ∧ (ch.pgn.emitted = 0 → t.posting = s.posting ++ flushed ++ [record m]
            ∧ t.chan c = { ch.emptied .held with pgn := rested })
        ∧ (ch.pgn.emitted ≠ 0 → t.posting = s.posting ++ flushed
            ∧ ∃ binding, (ch.binding = .notChained ∨ ch.binding = .unbound → binding = ch.binding)
              ∧ (ch.binding ≠ .notChained → ch.binding ≠ .unbound → binding = .closed)
              ∧ (last → t.chan c = stopping binding none (some (ch.pgn.lastStepAt + stepPeriod ch.pgn.rateSq)))
              ∧ (¬last → t.chan c = stopping binding
                  (some { due := ch.pgn.lastStepAt + stepPeriod slower, rateSq := slower }) none)))
    ∧ (found = .stopping → mode = .decel →
        t.chan c = { ch with watchHalt := watched } ∧ t.posting = s.posting ∧ a.2 = []))
  ∧ ∀ (s : State) (c : Chan),
    let record (k : ReqKind) (tag auxA : Word) :=
      (s.done .main k.code tag .cancelled .clear (chanByte c) (s.position c) auxA 0).showing s c
    (∀ m, cancelled? s c (.move m) = some (record .move m.tag 0) ∧ withdrawn? c (.move m) = none)
    ∧ (∀ tag duration, cancelled? s c (.dwell tag duration) = some (record .dwell tag 0)
        ∧ withdrawn? c (.dwell tag duration) = none)
    ∧ (∀ tag value, cancelled? s c (.setPosition tag value) = some (record .setPosition tag (s.position c))
        ∧ withdrawn? c (.setPosition tag value) = none)
    ∧ (∀ tag set clear, cancelled? s c (.mark tag set clear) = some (record .mark tag (auxMask s.aux))
        ∧ withdrawn? c (.mark tag set clear) = none)
    ∧ ∀ i, cancelled? s c (.marker i) = none ∧ withdrawn? c (.marker i) = some (.withdraw c i)

/-- HALT (R53, R59, R60): with the ESTOP latch clear each named channel stands as the halt order leaves it, and no other channel
changes but a member of a slot from which a MARKER was withdrawn, which is halted with DECEL (R82, R84); the records of the
orders come first, in the order of the channels; the two masks are recorded, and the HALT completes after those records once
every named channel is at rest in HELD or DISABLED, or waits for those that are not; a bad mode is refused and touches nothing.
And the pending-halt list at the end of a command (R60): a channel at rest in HELD or DISABLED leaves every waiting mask, and a
HALT that waits for none leaves the list and completes OK with its two masks. The model's choice: log entry 5, for the order of
completions too. -/
def Obligations.HaltStopsNamedChannels : Prop :=
  (∀ (s : State) (r : Block), Taken s .ctrl .halt r → s.haltsSettled → s.queuesShaped →
    let named := recMask r 8
    let halted := maskOf fun c => hasChan named c && !((s.chan c).state == .held || (s.chan c).state == .disabled)
    let untouched := maskOf fun c => hasChan named c && ((s.chan c).state == .held || (s.chan c).state == .disabled)
    let completion := s.done .ctrl ReqKind.halt.code (recTag r) .ok .clear 0 0 (auxMask halted) (auxMask untouched)
    (haltMode? (blockByte r 9) = none →
      Answers (exec (.halt .ctrl) s) fun t =>
        t.posting = s.posting ++ [s.done .ctrl ReqKind.halt.code (recTag r) .badField .clear 0 0 0 0]
        ∧ TookFrom s t .ctrl
        ∧ t = { s with
            mainRing := t.mainRing, ctrlRing := t.ctrlRing, posting := t.posting, stall := t.stall, irq := t.irq,
            messages := t.messages })
    ∧ ∀ mode, haltMode? (blockByte r 9) = some mode →
      let orders := (eachAct (chansOf named) (fun c => haltOrder c mode false) s).1
      let noMarker := ∀ c i, hasChan named c = true → Entry.marker i ∉ (s.chan c).queue
      Answers (exec (.halt .ctrl) s) fun t =>
        let waits := stillMoving t named
        let pending : PendingHalt := { tag := recTag r, halted := halted, untouched := untouched, waiting := waits }
        (∀ c, hasChan named c = true → (s.chan c).state = .disabled → (t.chan c).state = .disabled)
        ∧ (∀ c, hasChan named c = true → (s.chan c).state ≠ .disabled → mode = .abrupt → (t.chan c).state = .held)
        ∧ (∀ c, hasChan named c = true → (s.chan c).state ≠ .disabled →
            (t.chan c).state = .held ∨ (t.chan c).state = .stopping)
        ∧ (s.estopLatch = false →
            (∀ c, hasChan named c = true → t.chan c = (haltOrder c mode false s).1.chan c)
            ∧ ∀ c, hasChan named c = false →
              t.chan c = s.chan c ∨ t.chan c = (haltOrder c .decel false s).1.chan c)
        ∧ (∀ c, hasChan named c = false → (∀ (i : SlotIx) sl, s.slots[i] = some sl → hasChan sl.members c = false) →
            t.chan c = s.chan c)
        ∧ (noMarker → (∀ c, hasChan named c = false → t.chan c = s.chan c) ∧ t.slots = s.slots
            ∧ t.openList = s.openList ∧ t.xsyncLow = s.xsyncLow ∧ t.xsyncRun = s.xsyncRun)
        ∧ (waits = 0 → t.halts = haltsLeft s t ∧ (∃ failures, t.posting
              = orders.posting ++ failures ++ haltsDone s t ++ [completion] ∧ (noMarker → failures = [])))
        ∧ (waits ≠ 0 → t.halts = haltsLeft s t ++ [pending]
            ∧ (∃ failures, t.posting = orders.posting ++ failures ++ haltsDone s t ∧ (noMarker → failures = [])))
        ∧ (∃ records, orders.posting = s.posting ++ records)
        ∧ (∀ c, t.position c = s.position c ∧ (t.chan c).cfg = (s.chan c).cfg)
        ∧ TookFrom s t .ctrl
        ∧ t = { s with
            chans := t.chans, slots := t.slots, openList := t.openList, xsyncLow := t.xsyncLow,
            xsyncRun := t.xsyncRun, halts := t.halts, mainRing := t.mainRing, ctrlRing := t.ctrlRing,
            posting := t.posting, stall := t.stall, irq := t.irq, messages := t.messages })
  ∧ ∀ s : State,
    let rested (c : Chan) := (s.chan c).state == .disabled || ((s.chan c).state == .held && (s.chan c).pgn.pulseEnd.isNone)
    let left (h : PendingHalt) := maskOf fun c => hasChan h.waiting c && !rested c
    sweepHalts s = { s with
      halts := s.halts.filterMap fun h => if left h = 0 then none else some { h with waiting := left h }
      posting := s.posting ++ (s.halts.filter fun h => left h == 0).map fun h =>
        s.done .ctrl ReqKind.halt.code h.tag .ok .clear 0 0 (auxMask h.halted) (auxMask h.untouched) }

/-- RESUME (R61): refused while the ESTOP latch is set; otherwise each named channel that is HELD and at rest becomes IDLE. -/
def Obligations.ResumeMakesIdle : Prop :=
  ∀ (s : State) (r : Block), Taken s .ctrl .resume r → s.haltsSettled →
    let named := recMask r 8
    let resumed := maskOf fun c => hasChan named c && ((s.chan c).state == .held && (s.chan c).pgn.pulseEnd.isNone)
    (s.estopLatch = true →
      Answers (exec (.resume .ctrl) s) fun t =>
        t.posting = s.posting ++ [s.done .ctrl ReqKind.resume.code (recTag r) .estopLatched .clear 0 0 0 0]
        ∧ TookFrom s t .ctrl
        ∧ t = { s with
            mainRing := t.mainRing, ctrlRing := t.ctrlRing, posting := t.posting, stall := t.stall, irq := t.irq,
            messages := t.messages })
    ∧ (s.estopLatch = false →
      Answers (exec (.resume .ctrl) s) fun t =>
        (∀ c, hasChan resumed c = true → t.chan c = { s.chan c with state := .idle })
        ∧ (∀ c, hasChan resumed c = false → t.chan c = s.chan c)
        ∧ t.posting = s.posting ++ [s.done .ctrl ReqKind.resume.code (recTag r) .ok .clear 0 0 (auxMask resumed) 0]
        ∧ TookFrom s t .ctrl
        ∧ t = { s with
            chans := t.chans, mainRing := t.mainRing, ctrlRing := t.ctrlRing, posting := t.posting, stall := t.stall,
            irq := t.irq, messages := t.messages })

/-- OVERRIDE_RATE (R47 to R49): refused, its checks in their order, with the channel unchanged; or accepted: the head's Vc is
replaced and its OVERRIDDEN flag set, a bound exit target is capped again, the scheduled step is kept, and the completion
carries the old Vc and the Vt in force. But for a channel number above 7 the completion carries the channel's position, in which
a leading edge of that instant counts (R33, log entry 28). -/
def Obligations.OverrideRateRefusedOrAccepted : Prop :=
  (∀ (s : State) (r : Block), Taken s .ctrl .overrideRate r → s.haltsSettled → s.queuesShaped →
    let c := recChan r
    let ch := s.chan c
    let rate := blockField r 8 4
    let refusedWith (record : Cpl) :=
      Answers (exec (.overrideRate .ctrl) s) fun t =>
        t.posting = s.posting ++ [record]
        ∧ TookFrom s t .ctrl
        ∧ t = { s with
            mainRing := t.mainRing, ctrlRing := t.ctrlRing, posting := t.posting, stall := t.stall, irq := t.irq,
            messages := t.messages }
    let refusal (status : Status) :=
      (s.done .ctrl ReqKind.overrideRate.code (recTag r) status .clear (chanByte c) (s.position c) 0 0).showing s c
    (7 < recChannel r →
      refusedWith (s.done .ctrl ReqKind.overrideRate.code (recTag r) .badField .clear 0 0 0 0))
    ∧ (recChannel r ≤ 7 →
        (¬(1 ≤ rate ∧ rate ≤ 400000) → refusedWith (refusal .badField))
        ∧ (1 ≤ rate → rate ≤ 400000 →
            (ch.state ≠ .running → refusedWith (refusal .notRunning))
            ∧ (ch.state = .running → ch.pgn.phase = .final → refusedWith (refusal .tooLate))
            ∧ (ch.state = .running → ch.pgn.phase ≠ .final → ∀ m, ch.headMove? = some m →
                rate < m.profile.vs ∨ ch.cfg.maxRate < rate → refusedWith (refusal .badField)))))
  ∧ ∀ (s : State) (r : Block) (m : MoveEntry), Taken s .ctrl .overrideRate r → s.haltsSettled → recChannel r ≤ 7 →
    let c := recChan r
    let ch := s.chan c
    let rate := blockField r 8 4
    let record (vt : Nat) := (s.done .ctrl ReqKind.overrideRate.code (recTag r) .ok .clear (chanByte c) (s.position c)
      (auxNat m.profile.vc) (auxNat vt)).showing s c
    1 ≤ rate → rate ≤ 400000 → ch.state = .running → ch.headMove? = some m → ch.pgn.phase ≠ .final →
    m.profile.vs ≤ rate → rate ≤ ch.cfg.maxRate →
    Answers (exec (.overrideRate .ctrl) s) fun t =>
      (t.chan c).queue
          = .move { m with profile := { m.profile with vc := rate }, overridden := true } :: ch.queue.tail
      ∧ (t.chan c).pgn = ch.pgn ∧ (t.chan c).state = .running
      ∧ (ch.headBound = false → (t.chan c).binding = ch.binding ∧ t.posting = s.posting ++ [record m.profile.vs])
      ∧ (∀ vt minimum place x ve next, ch.binding = .bound vt minimum place x → m.exitRate = some ve →
          ch.queue[place]? = some (.move next) →
          let capped := max minimum (min (min ve rate) next.profile.vc)
          (t.chan c).binding = .bound capped minimum place x ∧ t.posting = s.posting ++ [record capped])
      ∧ t.chan c = { ch with queue := (t.chan c).queue, binding := (t.chan c).binding }
      ∧ (∀ d, d ≠ c → t.chan d = s.chan d)
      ∧ TookFrom s t .ctrl
      ∧ t = { s with
          chans := t.chans, mainRing := t.mainRing, ctrlRing := t.ctrlRing, posting := t.posting, stall := t.stall,
          irq := t.irq, messages := t.messages }

/-- CANCEL_RENDEZVOUS (R87): the oldest open slot with the target tag fails with CANCELLED, and the request completes
OK after it; every member receives a DECEL halt order (R82); with no such slot it completes with NOT_FOUND and no slot
changes. Where no member holds a MARKER of another slot, no other slot and no other channel changes, and the records are those
of the slot, of the orders and of the request. The model's choice: log entries 5 and 28. -/
def Obligations.CancelFailsTheOldestMatch : Prop :=
  ∀ (s : State) (r : Block), Taken s .ctrl .cancelRendezvous r → s.haltsSettled →
    let target := blockWord r 8
    ((∀ i ∈ s.openList, ∀ sl, s.slots[i] = some sl → sl.tag ≠ target) →
      Answers (exec (.cancelRendezvous .ctrl) s) fun t =>
        t.posting = s.posting ++ [s.done .ctrl ReqKind.cancelRendezvous.code (recTag r) .notFound .clear 0 0 0 0]
        ∧ TookFrom s t .ctrl
        ∧ t = { s with
            mainRing := t.mainRing, ctrlRing := t.ctrlRing, posting := t.posting, stall := t.stall, irq := t.irq,
            messages := t.messages })
    ∧ ∀ (older : List SlotIx) (i : SlotIx) (newer : List SlotIx) (sl : Slot), s.openList = older ++ i :: newer →
      (∀ j ∈ older, ∀ x, s.slots[j] = some x → x.tag ≠ target) → s.slots[i] = some sl → sl.tag = target →
      Answers (exec (.cancelRendezvous .ctrl) s) fun t =>
        t.slots[i] = none
        ∧ (∃ a b, t.posting = s.posting
            ++ slotFailure s .cancelled i sl :: a
            ++ s.done .ctrl ReqKind.cancelRendezvous.code (recTag r) .ok .clear 0 0 (auxNat i.val)
                (auxMask sl.arrived) :: b)
        ∧ (∀ c, hasChan sl.members c = true → (s.chan c).state ∈ [ChanState.idle, .dwelling, .waiting] →
            (t.chan c).state = .held)
        ∧ (∀ c, hasChan sl.members c = true → (s.chan c).state = .running ∨ (s.chan c).state = .stopping →
            (s.chan c).shaped = true → (t.chan c).state = .stopping ∨ (t.chan c).state = .held)
        ∧ (s.estopLatch = false → ∀ c, hasChan sl.members c = true → t.chan c = (haltOrder c .decel false s).1.chan c)
        ∧ ((∀ c j, hasChan sl.members c = true → .marker j ∈ (s.chan c).queue → j = i) →
            let orders := (eachAct (chansOf sl.members) (fun c => haltOrder c .decel false)
              { s with posting := s.posting ++ [slotFailure s .cancelled i sl] }).1
            (∀ c, hasChan sl.members c = true → t.chan c = (haltOrder c .decel false s).1.chan c)
            ∧ (∀ c, hasChan sl.members c = false → t.chan c = s.chan c)
            ∧ t.openList = s.openList.erase i ∧ (∀ j : SlotIx, j ≠ i → t.slots[j] = s.slots[j])
            ∧ t.xsyncLow = (if sl.external then false else s.xsyncLow)
            ∧ t.xsyncRun = (if sl.external then none else s.xsyncRun)
            ∧ t.posting = orders.posting ++ [s.done .ctrl ReqKind.cancelRendezvous.code (recTag r) .ok .clear 0 0
                (auxNat i.val) (auxMask sl.arrived)] ++ haltsDone s t
            ∧ rendezvousRecords (t.posting.drop s.posting.length) = [slotFailure s .cancelled i sl])
        ∧ (∀ c, t.position c = s.position c ∧ (t.chan c).cfg = (s.chan c).cfg)
        ∧ TookFrom s t .ctrl
        ∧ t = { s with
            chans := t.chans, slots := t.slots, openList := t.openList, xsyncLow := t.xsyncLow,
            xsyncRun := t.xsyncRun, halts := t.halts, mainRing := t.mainRing, ctrlRing := t.ctrlRing,
            posting := t.posting, stall := t.stall, irq := t.irq, messages := t.messages }

/-- SET_WATCH (R93, R95, R96): a record that passes the checks of R95 replaces the named watch whole, with its fields, ARMED or
DORMANT, and reports the state found with the channel's position, in which a leading edge of that instant counts (R33, log entry
28); another record is refused with BAD_FIELD. CLEAR_WATCH (R97): the watch becomes EMPTY whatever its state, and the
request reports the state found; an index above 15 is refused with BAD_FIELD. -/
def Obligations.WatchRequestsWriteTheTable : Prop :=
  (∀ (s : State) (r : Block), Taken s .ctrl .setWatch r → s.haltsSettled →
     let byte := blockByte r
     let rearm := byte 13 = 2
     let h := blockField r 20 2
     let position := byte 9 = 1 ∧ (byte 10 = 1 ∨ byte 10 = 2 ∨ byte 10 = 3) ∧ byte 11 = 0 ∧ byte 12 = 0
       ∧ ((byte 13 = 1 ∧ h = 0) ∨ (rearm ∧ 1 ≤ h))
     let edge := byte 9 = 2 ∧ byte 10 = 0 ∧ (byte 11).toNat ≤ 3 ∧ (byte 12 = 1 ∨ byte 12 = 2 ∨ byte 12 = 3)
       ∧ blockField r 16 4 = 0 ∧ (byte 13 = 1 ∨ rearm) ∧ h = 0
     let good := (byte 8).toNat ≤ 15 ∧ recChannel r ≤ 7 ∧ (position ∨ edge) ∧ (byte 14 = 0 ∨ byte 14 = 1)
       ∧ (byte 15 = 0 ∨ byte 15 = 1) ∧ byte 24 &&& byte 25 = 0
       ∧ ((byte 26 = 0 ∧ byte 27 = 0) ∨ (byte 26 = 1 ∧ (byte 27).toNat ≤ 15))
     (good → ∃ (i : WatchIx) (w : Watch),
       i.val = (byte 8).toNat ∧ w.channel.val = recChannel r
       ∧ w.state = (if byte 15 = 1 then .armed else .dormant) ∧ w.notify = (byte 14 == 1)
       ∧ w.decel = byte 22 ∧ w.abrupt = byte 23 ∧ w.auxSet = byte 24 ∧ w.auxClear = byte 25
       ∧ (byte 26 = 0 → w.arm = none) ∧ (byte 26 = 1 → ∃ j : WatchIx, w.arm = some j ∧ j.val = (byte 27).toNat)
       ∧ (byte 9 = 1 → w.cond = .position (blockWord r 16)
           (if byte 10 = 1 then .up else if byte 10 = 2 then .down else .either) (if byte 13 = 2 then some h else none))
       ∧ (byte 9 = 2 → ∃ input : CapIx, input.val = (byte 11).toNat
           ∧ w.cond = .edge input (if byte 12 = 1 then .rise else if byte 12 = 2 then .fall else .both) (byte 13 == 2))
       ∧ Answers (exec (.setWatch .ctrl) s) fun t =>
         t.watches[i] = some w ∧ (∀ j : WatchIx, j ≠ i → t.watches[j] = s.watches[j])
         ∧ t.posting = s.posting ++ [(s.done .ctrl ReqKind.setWatch.code (recTag r) .ok .clear (chanByte w.channel)
             (s.position w.channel) (auxNat i.val) (auxNat (watchCode (s.watches[i])))).showing s w.channel]
         ∧ TookFrom s t .ctrl
         ∧ t = { s with
             watches := t.watches, mainRing := t.mainRing, ctrlRing := t.ctrlRing, posting := t.posting,
             stall := t.stall, irq := t.irq, messages := t.messages })
     ∧ (¬good →
       Answers (exec (.setWatch .ctrl) s) fun t =>
         t.posting = s.posting ++ [s.done .ctrl ReqKind.setWatch.code (recTag r) .badField .clear 0 0 0 0]
         ∧ TookFrom s t .ctrl
         ∧ t = { s with
             mainRing := t.mainRing, ctrlRing := t.ctrlRing, posting := t.posting, stall := t.stall, irq := t.irq,
             messages := t.messages }))
  ∧ ∀ (s : State) (r : Block), Taken s .ctrl .clearWatch r → s.haltsSettled →
    (∀ i : WatchIx, i.val = (blockByte r 8).toNat →
      Answers (exec (.clearWatch .ctrl) s) fun t =>
        t.watches[i] = none ∧ (∀ j : WatchIx, j ≠ i → t.watches[j] = s.watches[j])
        ∧ t.posting = s.posting ++ [s.done .ctrl ReqKind.clearWatch.code (recTag r) .ok .clear 0 0 (auxNat i.val)
            (auxNat (watchCode (s.watches[i])))]
        ∧ TookFrom s t .ctrl
        ∧ t = { s with
            watches := t.watches, mainRing := t.mainRing, ctrlRing := t.ctrlRing, posting := t.posting,
            stall := t.stall, irq := t.irq, messages := t.messages })
    ∧ (15 < (blockByte r 8).toNat →
      Answers (exec (.clearWatch .ctrl) s) fun t =>
        t.posting = s.posting ++ [s.done .ctrl ReqKind.clearWatch.code (recTag r) .badField .clear 0 0 0 0]
        ∧ TookFrom s t .ctrl
        ∧ t = { s with
            mainRing := t.mainRing, ctrlRing := t.ctrlRing, posting := t.posting, stall := t.stall, irq := t.irq,
            messages := t.messages })

/-- SET_CHANNEL (R52, R62 to R64): BAD_FIELD where a field is out of its range or BUSY where the channel is not at rest, and
nothing changed; or the record replaced whole, the state changed by the enable field, and each limit qualifier at its pin's
level under a new limit polarity. The model's choice: log entry 12 for the channel field of the completion, log entry 27 for
the limit qualifiers where the polarity stays, log entry 28 for a leading edge of that instant. -/
def Obligations.SetChannelConfiguresOrRefuses : Prop :=
  ∀ (s : State) (r : Block), Taken s .ctrl .setChannel r → s.haltsSettled →
    let c := recChan r
    let ch := s.chan c
    let byte := blockByte r
    let num (i : Nat) := (byte i).toNat
    let flag (i : Nat) := byte i = 0 ∨ byte i = 1
    let code (i : Nat) := byte i = 1 ∨ byte i = 2
    let good := recChannel r ≤ 7 ∧ flag 8 ∧ 1 ≤ num 9 ∧ num 9 ≤ 63 ∧ 1 ≤ num 10 ∧ 1 ≤ blockField r 12 4
      ∧ blockField r 12 4 ≤ 400000 ∧ blockField r 12 4 ≤ 500000 / num 9 ∧ (blockWord r 16).toInt ≤ (blockWord r 20).toInt
      ∧ code 24 ∧ flag 25 ∧ flag 26 ∧ code 27
    let cfg : ChanConfig := {
      enable := byte 8 == 1, pulseWidth := num 9, dirSettle := num 10, maxRate := blockField r 12 4,
      softMin := (blockWord r 16).toInt, softMax := (blockWord r 20).toInt, limitFilter := num 11,
      limitPolarity := if byte 24 = 2 then .activeHigh else .activeLow, limpEnable := byte 25 == 1,
      limnEnable := byte 26 == 1, dirPolarity := if byte 27 = 2 then .posLow else .posHigh }
    let free := ch.state = .disabled ∨ ch.state = .idle ∨ (ch.state = .held ∧ ch.pgn.pulseEnd = none)
    let follows (old new : Qual) := (cfg.limitPolarity = ch.cfg.limitPolarity → new = old)
      ∧ (cfg.limitPolarity ≠ ch.cfg.limitPolarity → new = { old with
          before := none, qualified := if cfg.limitPolarity = .activeHigh then old.level else !old.level })
    let refusedWith (status : Status) :=
      Answers (exec (.setChannel .ctrl) s) fun t =>
        t.posting = s.posting ++ [s.done .ctrl ReqKind.setChannel.code (recTag r) status .clear 0 0 0 0]
        ∧ TookFrom s t .ctrl
        ∧ t = { s with
            mainRing := t.mainRing, ctrlRing := t.ctrlRing, posting := t.posting, stall := t.stall, irq := t.irq,
            messages := t.messages }
    (¬good → refusedWith .badField)
    ∧ (good → ¬free → refusedWith .busy)
    ∧ (good → free →
      Answers (exec (.setChannel .ctrl) s) fun t =>
        (t.chan c).cfg = cfg
        ∧ (byte 8 = 0 → (t.chan c).state = .disabled)
        ∧ (byte 8 = 1 → ch.state = .disabled → (t.chan c).state = if s.estopLatch then .held else .idle)
        ∧ (byte 8 = 1 → ch.state ≠ .disabled → (t.chan c).state = ch.state)
        ∧ follows ch.limp (t.chan c).limp ∧ follows ch.limn (t.chan c).limn
        ∧ t.chan c = { ch with
            cfg := (t.chan c).cfg, state := (t.chan c).state, limp := (t.chan c).limp, limn := (t.chan c).limn }
        ∧ t.posting = s.posting ++ [(s.done .ctrl ReqKind.setChannel.code (recTag r) .ok .clear (chanByte c)
            (s.position c) (auxNat ch.state.code) (auxNat (t.chan c).state.code)).showing s c]
        ∧ (∀ d, d ≠ c → t.chan d = s.chan d)
        ∧ TookFrom s t .ctrl
        ∧ t = { s with
            chans := t.chans, mainRing := t.mainRing, ctrlRing := t.ctrlRing, posting := t.posting, stall := t.stall,
            irq := t.irq, messages := t.messages })

/-- QUERY (R70, R180): it completes at once and changes no channel; aux A is the rate and the fields of aux B are the items of
R70, as they stand when it is taken. The position is that of the channel, and a leading edge of that instant counts in it, also
one that is taken after the QUERY (R33). The model's choice: log entry 28. -/
def Obligations.QueryReportsTheChannel : Prop :=
  ∀ (s : State) (r : Block), Taken s .ctrl .query r → s.haltsSettled → s.queuesBounded →
    let c := recChan r
    let ch := s.chan c
    (7 < recChannel r →
      Answers (exec (.query .ctrl) s) fun t =>
        t.posting = s.posting ++ [s.done .ctrl ReqKind.query.code (recTag r) .badField .clear 0 0 0 0]
        ∧ TookFrom s t .ctrl
        ∧ t = { s with
            mainRing := t.mainRing, ctrlRing := t.ctrlRing, posting := t.posting, stall := t.stall, irq := t.irq,
            messages := t.messages })
    ∧ (recChannel r ≤ 7 →
      Answers (exec (.query .ctrl) s) fun t => ∃ auxB : Word,
        t.posting = s.posting ++ [(s.done .ctrl ReqKind.query.code (recTag r) .ok .clear (chanByte c) (s.position c)
          (auxNat (isqrt ch.pgn.rateSq)) auxB).showing s c]
        ∧ (auxB.extractLsb' 0 3).toNat = ch.state.code ∧ auxB.getLsbD 3 = ch.atRest
        ∧ (auxB.extractLsb' 4 3).toNat = ch.pgn.phase.code ∧ (auxB.extractLsb' 8 4).toNat = ch.queue.length
        ∧ auxB.getLsbD 12 = ch.pgn.dirHigh ∧ auxB.getLsbD 13 = ch.positive ∧ auxB.getLsbD 14 = ch.headBound
        ∧ auxB.getLsbD 15 = ch.limp.qualified ∧ auxB.getLsbD 16 = ch.limn.qualified
        ∧ auxB.getLsbD 17 = s.estopLatch
        ∧ TookFrom s t .ctrl
        ∧ t = { s with
            mainRing := t.mainRing, ctrlRing := t.ctrlRing, posting := t.posting, stall := t.stall, irq := t.irq,
            messages := t.messages })

/-- CLEAR_ESTOP (R166): with the input asserted it completes with INPUT_ACTIVE and the latch keeps its value; with the input
negated the latch becomes clear. -/
def Obligations.ClearEstopFollowsTheInput : Prop :=
  ∀ (s : State) (r : Block), Taken s .ctrl .clearEstop r → s.haltsSettled →
    let completed (status : Status) (t : State) :=
      t.posting = s.posting ++ [s.done .ctrl ReqKind.clearEstop.code (recTag r) status .clear 0 0
          (if s.estopLatch then 1 else 0) 0]
      ∧ TookFrom s t .ctrl
    (s.estop.qualified = true →
      Answers (exec (.clearEstop .ctrl) s) fun t =>
        completed .inputActive t
        ∧ t = { s with
            mainRing := t.mainRing, ctrlRing := t.ctrlRing, posting := t.posting, stall := t.stall, irq := t.irq,
            messages := t.messages })
    ∧ (s.estop.qualified = false →
      Answers (exec (.clearEstop .ctrl) s) fun t =>
        t.estopLatch = false ∧ completed .ok t
        ∧ t = { s with
            estopLatch := t.estopLatch, mainRing := t.mainRing, ctrlRing := t.ctrlRing, posting := t.posting,
            stall := t.stall, irq := t.irq, messages := t.messages })

/-! ### Writes of the register window, and the resets -/

/-- Writes of SETUP_LO, SETUP_HI, INT_CAUSE and STAT, and the writes that the window ignores (R115, R144, R153, R182). A
write of STAT with 0 in INDEX_ERROR is the command of its offset too, and changes nothing. -/
def Obligations.PlainRegisterWrites : Prop :=
  ∀ s : State, s.inReset = false → s.haltsSettled →
    (∀ v : Word, Answers (exec (.setupLo v) s) fun t =>
      t = { s with setupLo := v, stall := t.stall, irq := t.irq, messages := t.messages })
    ∧ (∀ v : Word, Answers (exec (.setupHi v) s) fun t =>
      t = { s with setupHi := v, stall := t.stall, irq := t.irq, messages := t.messages })
    ∧ (∀ v : Word, Answers (exec (.intCauseClear v) s) fun t =>
      (∀ i : Fin 4, t.intCause.getLsbD i.val = (s.intCause.getLsbD i.val && !v.getLsbD i.val))
      ∧ t = { s with intCause := t.intCause, stall := t.stall, irq := t.irq, messages := t.messages })
    ∧ (∀ v : Word, (Instr.indexErrorClear v).wf = true → Answers (exec (.indexErrorClear v) s) fun t =>
      t = { s with indexError := false, stall := t.stall, irq := t.irq, messages := t.messages })
    ∧ (∀ v : Word, windowCommand 4 15 v = .indexErrorClear v
        ∧ (v.getLsbD 11 = false → Answers (exec (.indexErrorClear v) s) fun t =>
          t = { s with stall := t.stall, irq := t.irq, messages := t.messages }))
    ∧ (∀ (offset : BitVec 6) (enables : BitVec 4) (v : Word), (Instr.ignoredRegisterWrite offset enables v).wf = true →
      Answers (exec (.ignoredRegisterWrite offset enables v) s) fun t =>
        t = { s with stall := t.stall, irq := t.irq, messages := t.messages })

/-- Writes of MAIN_POST, CTRL_POST and CPL_RETIRE (R113, R115, R118, R135): in RUNNING, DRAINING and FAILED a value below the
ring's size is taken, which ends a suspension, and a larger one is ignored with INDEX_ERROR set; in OFF and STARTING the
write is ignored without it. -/
def Obligations.IndexWritesAreJudged : Prop :=
  ∀ (s : State) (v : Word), s.inReset = false → s.haltsSettled →
    let judged := s.part = .running ∨ s.part = .draining ∨ s.part = .failed
    let errorOnly (c : Instr) := Answers (exec c s) fun t =>
      t = { s with indexError := true, stall := t.stall, irq := t.irq, messages := t.messages }
    let nothing (c : Instr) := Answers (exec c s) fun t =>
      t = { s with stall := t.stall, irq := t.irq, messages := t.messages }
    (judged → v.toNat < placeSize s.mainRing.place → Answers (exec (.mainPost v) s) fun t =>
      t = { s with
        mainRing := { s.mainRing with post := v.toNat, suspended := false }, stall := t.stall, irq := t.irq,
        messages := t.messages })
    ∧ (judged → placeSize s.mainRing.place ≤ v.toNat → errorOnly (.mainPost v))
    ∧ (judged → v.toNat < placeSize s.ctrlRing.place → Answers (exec (.ctrlPost v) s) fun t =>
      t = { s with
        ctrlRing := { s.ctrlRing with post := v.toNat, suspended := false }, stall := t.stall, irq := t.irq,
        messages := t.messages })
    ∧ (judged → placeSize s.ctrlRing.place ≤ v.toNat → errorOnly (.ctrlPost v))
    ∧ (judged → v.toNat < placeSize s.cplPlace → Answers (exec (.cplRetire v) s) fun t =>
      t = { s with cplRetire := v.toNat, stall := t.stall, irq := t.irq, messages := t.messages })
    ∧ (judged → placeSize s.cplPlace ≤ v.toNat → errorOnly (.cplRetire v))
    ∧ (¬judged → nothing (.mainPost v) ∧ nothing (.ctrlPost v) ∧ nothing (.cplRetire v))

/-- Writes of CTRL without SOFT_RESET (R86, R147, R152, R154, R158): INT_ENABLE is taken, the interrupt request follows it, and ENABLE
acts by the part state; entering DRAINING gives the RUNNING, STOPPING, DWELLING and WAITING channels a DECEL order and fails every
open slot with CANCELLED, in the order of the open list, and reaches no other channel but an IDLE member of such a slot. The
model's choice: each of ENABLE_SET, ENABLE_CLEAR and INT_ENABLE is such a write (log entry 18); the order of the records, and a
leading edge of that instant in them (log entries 5 and 28). -/
def Obligations.ControlWritesActByPartState : Prop :=
  ∀ (s : State) (v : Word) (c : Instr), c = .enableSet v ∨ c = .enableClear v ∨ c = .intEnable v →
    s.inReset = false → v.getLsbD 1 = false → s.haltsSettled → s.queuesShaped → s.slotsSound →
    let on := v.getLsbD 0
    let address := s.setupLo.toNat + 4294967296 * s.setupHi.toNat
    let drained := maskOf fun d => decide ((s.chan d).state ∈ [ChanState.running, .stopping, .dwelling, .waiting])
    let orders := (eachAct (chansOf drained) (fun d => haltOrder d .decel false) s).1
    let member (d : Chan) := ∃ (i : SlotIx) (sl : Slot), s.slots[i] = some sl ∧ hasChan sl.members d = true
    Answers (exec c s) fun t =>
      t.intEnable = v.getLsbD 2 ∧ t.irq = (t.intCause != 0 && t.intEnable)
      ∧ (s.part = .off → on = true → address % 64 = 0 →
          t.part = .starting ∧ t.setupRead = some address ∧ t.faultCode = .none ∧ t.intCause = s.intCause)
      ∧ (s.part = .off → on = true → address % 64 ≠ 0 →
          t.part = .off ∧ t.setupRead = none ∧ t.faultCode = .setupAddress ∧ t.intCause = s.intCause ||| causeSetup)
      ∧ (s.part = .starting → on = false →
          t.part = .off ∧ t.setupRead = none ∧ t.faultCode = s.faultCode ∧ t.intCause = s.intCause)
      ∧ ((s.part = .off ∧ on = false) ∨ ((s.part = .starting ∨ s.part = .running) ∧ on = true) ∨ s.part = .draining
            ∨ s.part = .failed →
          t.part = s.part ∧ t.setupRead = s.setupRead ∧ t.faultCode = s.faultCode ∧ t.intCause = s.intCause)
      ∧ (¬(s.part = .running ∧ on = false) →
          t = { s with
            part := t.part, setupRead := t.setupRead, faultCode := t.faultCode, intCause := t.intCause,
            intEnable := t.intEnable, stall := t.stall, irq := t.irq, messages := t.messages })
      ∧ (s.part = .running → on = false →
          t.part = .draining ∧ t.mainRing = { s.mainRing with buffer := .empty }
          ∧ t.ctrlRing = { s.ctrlRing with buffer := .empty } ∧ t.stall = .none ∧ t.openList = []
          ∧ (∃ more, t.posting = s.posting ++ more ∧ rendezvousRecords more = slotFailures s .cancelled)
          ∧ (∀ d, (s.chan d).state = .running ∨ (s.chan d).state = .stopping →
              (t.chan d).state = .stopping ∨ (t.chan d).state = .held)
          ∧ (∀ d, (s.chan d).state = .dwelling ∨ (s.chan d).state = .waiting → (t.chan d).state = .held)
          ∧ (∀ d, (s.chan d).state = .held ∨ (s.chan d).state = .disabled → t.chan d = s.chan d)
          ∧ (∀ d, hasChan drained d = true → t.chan d = (haltOrder d .decel false s).1.chan d)
          ∧ (∀ d, (s.chan d).state = .idle → member d → t.chan d = (haltOrder d .decel false s).1.chan d)
          ∧ (∀ d, (s.chan d).state = .idle → ¬member d → t.chan d = s.chan d)
          ∧ t.posting = orders.posting ++ slotFailures s .cancelled ++ haltsDone s t ∧ t.halts = haltsLeft s t
          ∧ (∀ d, t.position d = s.position d ∧ (t.chan d).cfg = (s.chan d).cfg)
          ∧ t = { s with
            part := t.part, intEnable := t.intEnable, mainRing := t.mainRing, ctrlRing := t.ctrlRing, chans := t.chans,
            slots := t.slots, openList := t.openList, xsyncLow := t.xsyncLow, xsyncRun := t.xsyncRun,
            halts := t.halts, posting := t.posting, stall := t.stall, irq := t.irq, messages := t.messages })

/-- The resets (R168, R169, R172): every block takes its reset values and every qualifier its pin's level; a soft reset
keeps SETUP_LO, SETUP_HI and INT_ENABLE, and the pin reset, taken once RST# has been low for 1 µs, holds the part until RST#
has been high for 1 µs. While the pin holds the part in reset every command but the end of that reset is ignored (R172, R182).
The model's choice: log entries 6 and 16 for the pin reset. -/
def Obligations.ResetsRestoreEveryBlock : Prop :=
  (∀ s : State,
    let restored (rst : Qual) (t : State) :=
      (∀ c : Chan, t.chan c = Channel.reset
        { (s.chan c).limp with before := none, qualified := !(s.chan c).limp.level }
        { (s.chan c).limn with before := none, qualified := !(s.chan c).limn.level })
      ∧ (∀ i : CapIx, t.caps[i] = { s.caps[i] with before := none, qualified := s.caps[i].level })
      ∧ t = { State.reset with
          pending := s.pending, now := s.now, choices := s.choices, messages := s.messages,
          msiEnabled := s.msiEnabled, xsync := s.xsync, chans := t.chans, caps := t.caps,
          estop := { s.estop with before := none, qualified := !s.estop.level }, rst := rst,
          setupLo := t.setupLo, setupHi := t.setupHi, intEnable := t.intEnable }
    let cleared (t : State) := t.setupLo = 0 ∧ t.setupHi = 0 ∧ t.intEnable = false
    let pinDone := s.rst.completes (!s.rst.level) 1 s.now = true
    let heldIn (held : Bool) : Qual := { s.rst with before := none, qualified := held }
    (s.inReset = false →
      Answers (exec .conventionalReset s) (fun t => restored s.rst t ∧ cleared t)
      ∧ Answers (exec .functionLevelReset s) (fun t => restored s.rst t ∧ cleared t)
      ∧ (pinDone → Answers (exec .pinResetAssert s) (fun t => restored (heldIn true) t ∧ cleared t))
      ∧ (¬pinDone → s.haltsSettled → Answers (exec .pinResetAssert s) fun t =>
          t = { s with stall := t.stall, irq := t.irq, messages := t.messages })
      ∧ ∀ v : Word, (Instr.softReset v).wf = true → Answers (exec (.softReset v) s) fun t =>
          restored s.rst t ∧ t.setupLo = s.setupLo ∧ t.setupHi = s.setupHi ∧ t.intEnable = s.intEnable)
    ∧ (s.inReset = true → pinDone → Answers (exec .pinResetRelease s) fun t => restored (heldIn false) t ∧ cleared t)
    ∧ (¬(s.inReset = true ∧ pinDone) → exec .pinResetRelease s = .next s))
  ∧ ∀ (c : Instr) (s : State), s.inReset = true → c ≠ .pinResetRelease → exec c s = .next s

/-! ### Pins -/

/-- The levels of the output pins (R170, R171, R173, R174, R176, R177): each shows what its block holds, and in each part state
what that state allows: STEP low outside service, no pulse of a RUNNING, DWELLING or WAITING channel in DRAINING and FAILED, and
XSYNC low exactly while an EXTERNAL slot is OPEN or GATHERING. A reset takes every one to low and releases XSYNC, and a held reset
keeps them there. In a step STEP rises for the pulse width and falls at its end, cut short only by a reset, and DIR changes only
as a MOVE starts with SETTLE, which a halt of the same instant may end, or by a reset. The model's choice: log entry 16 for a
held reset. -/
def Obligations.OutputPinsShowTheirLevels : Prop :=
  (∀ s : State, (∀ c, s.stepPin c = (s.chan c).pgn.pulseEnd.isSome ∧ s.dirPin c = (s.chan c).pgn.dirHigh)
    ∧ s.auxPins = s.aux ∧ s.xsyncPinLow = s.xsyncLow ∧ s.xsyncWire = (s.xsync && !s.xsyncLow))
  ∧ (∀ s : State, s.outputsSound → s.slotsSound →
    (s.part = .off ∨ s.part = .starting → ∀ c, s.stepPin c = false)
    ∧ (s.part = .draining ∨ s.part = .failed → ∀ c, s.stepPin c = true →
        (s.chan c).state ∉ [ChanState.running, .dwelling, .waiting])
    ∧ (s.part ≠ .running → s.xsyncPinLow = false)
    ∧ (s.xsyncPinLow = true ↔ ∃ (i : SlotIx) (sl : Slot), s.slots[i] = some sl ∧ sl.external = true
        ∧ (sl.state = .opened ∨ sl.state = .gathering)))
  ∧ (∀ s : State,
    let low (t : State) := (∀ c, t.stepPin c = false ∧ t.dirPin c = false) ∧ t.auxPins = 0 ∧ t.xsyncPinLow = false
    (s.inReset = false →
      Answers (exec .conventionalReset s) low ∧ Answers (exec .functionLevelReset s) low
      ∧ (∀ v : Word, (Instr.softReset v).wf = true → Answers (exec (.softReset v) s) low)
      ∧ (s.rst.completes (!s.rst.level) 1 s.now = true → Answers (exec .pinResetAssert s) low))
    ∧ (s.inReset = true → low s → ∀ t, step s = .next t → low t))
  ∧ ∀ (s t : State) (c : Chan), step s = .next t →
    let p := (s.chan c).pgn
    let q := (t.chan c).pgn
    (s.stepPin c = false → t.stepPin c = true →
      q.pulseEnd = some (s.now + 40 * (s.chan c).cfg.pulseWidth)
      ∧ (t.chan c).state ∈ [ChanState.running, .stopping, .held] ∧ q.dirHigh = p.dirHigh)
    ∧ (∀ e, p.pulseEnd = some e → t.stepPin c = false → e ≤ s.now ∨ q = Pgn.reset)
    ∧ (t.dirPin c ≠ s.dirPin c → q = Pgn.reset
        ∨ ((t.chan c).state = .running ∧ q.phase = .settle
            ∧ q.settleEnd = some (s.now + 40 * (s.chan c).cfg.dirSettle))
        ∨ ((t.chan c).state = .held ∧ (t.chan c).queue = []))

/-- ESTOP (R163 to R165): a change of the input counts once it has held for 4 µs; an assertion in RUNNING or DRAINING with the
latch clear sets the latch, gives every enabled channel an ABRUPT order (R54, R56), fails every slot with ABORTED in the order of
the open list (R85), writes the safe pattern and hands over the notice; elsewhere the qualified state alone records it, but
that a FAILED part gives its STOPPING channels that order; a negation changes nothing but the qualified state. The model's
choice: log entries 5 and 6, and log entry 28 for a leading edge of that instant in the slots' records. -/
def Obligations.EstopChangesAct : Prop :=
  ∀ s : State, s.inReset = false → s.haltsSettled → s.queuesShaped → s.slotsSound →
    let comes := s.estop.completes (!s.estop.level) 4 s.now = true
    let changed (asserted : Bool) : Qual := { s.estop with before := none, qualified := asserted }
    let quiet (estop : Qual) (t : State) :=
      t = { s with estop := estop, stall := t.stall, irq := t.irq, messages := t.messages }
    let enabled := maskOf fun c => (s.chan c).state != .disabled
    let safe := s.safePattern.getD 0
    let record := s.notice noticeEstop 0 0 0 (auxMask enabled) (auxMask safe)
    let told : List Cpl := if s.notices < 16 then [{ record with lost := BitVec.ofNat 8 s.lost }] else []
    let orders (m : Mask) := (eachAct (chansOf m) (fun c => haltOrder c .abrupt false) s).1
    (¬comes ∨ s.estop.qualified = false → Answers (exec .estopNegation s) (quiet s.estop))
    ∧ (¬comes ∨ s.estop.qualified = true → Answers (exec .estopAssertion s) (quiet s.estop))
    ∧ (comes → s.estop.qualified = true → Answers (exec .estopNegation s) (quiet (changed false)))
    ∧ (comes → s.estop.qualified = false →
        s.part = .off ∨ s.part = .starting ∨ (s.estopLatch = true ∧ s.part ≠ .failed) →
        Answers (exec .estopAssertion s) (quiet (changed true)))
    ∧ (comes → s.estop.qualified = false → s.part = .running ∨ s.part = .draining → s.estopLatch = false →
        Answers (exec .estopAssertion s) fun t =>
          t.estopLatch = true ∧ t.estop.qualified = true ∧ t.aux = safe ∧ t.openList = []
          ∧ (∃ more, t.posting = s.posting ++ more ∧ rendezvousRecords more = slotFailures s .aborted)
          ∧ (∀ c, t.chan c = (haltOrder c .abrupt false s).1.chan c)
          ∧ t.posting = (orders enabled).posting ++ slotFailures s .aborted ++ told ++ haltsDone s t
          ∧ t.halts = haltsLeft s t
          ∧ (∀ c, (s.chan c).state = .disabled → t.chan c = s.chan c)
          ∧ (∀ c, (s.chan c).state ≠ .disabled → (t.chan c).state = .held ∧ (t.chan c).queue = [])
          ∧ (∀ c, t.position c = s.position c ∧ (t.chan c).pgn.pulseEnd = (s.chan c).pgn.pulseEnd
              ∧ (t.chan c).pgn.dirHigh = (s.chan c).pgn.dirHigh)
          ∧ (s.notices < 16 → { record with lost := BitVec.ofNat 8 s.lost } ∈ t.posting ∧ t.lost = 0)
          ∧ (16 ≤ s.notices → t.lost = min 255 (s.lost + 1))
          ∧ t = { s with
              estop := changed true, estopLatch := true, aux := t.aux, chans := t.chans, slots := t.slots,
              openList := t.openList, xsyncLow := t.xsyncLow, xsyncRun := t.xsyncRun, halts := t.halts,
              posting := t.posting, lost := t.lost, stall := t.stall, irq := t.irq, messages := t.messages })
    ∧ (comes → s.estop.qualified = false → s.part = .failed →
        Answers (exec .estopAssertion s) fun t =>
          t.estopLatch = s.estopLatch ∧ t.estop.qualified = true ∧ t.aux = s.aux
          ∧ (∀ c, (s.chan c).state = .stopping → (t.chan c).state = .held)
          ∧ (∀ c, (s.chan c).state ≠ .stopping → t.chan c = s.chan c)
          ∧ (∀ c, (s.chan c).state = .stopping → t.chan c = (haltOrder c .abrupt false s).1.chan c)
          ∧ t.posting = (orders (maskOf fun c => (s.chan c).state == .stopping)).posting ++ haltsDone s t
          ∧ t.halts = haltsLeft s t
          ∧ (∀ c, t.position c = s.position c ∧ (t.chan c).cfg = (s.chan c).cfg)
          ∧ t = { s with
              estop := changed true, chans := t.chans, halts := t.halts, posting := t.posting, stall := t.stall,
              irq := t.irq, messages := t.messages })

/-- A qualified change of a limit input (R66, R68), which counts once the input has held for the channel's filter time: it stops
a channel stepping toward it abruptly, with a LIMIT notice first, the entries behind the head CANCELLED and the head LIMIT
(R55 to R57), and otherwise changes the qualified state alone. The model's choice: log entries 5 and 6, log entry 24 for the hold
counted from the last fall of STEP, log entry 25 for the counts cleared at rest, and log entry 28 for a leading edge of that
instant in the CANCELLED records. -/
def Obligations.LimitChangesAct : Prop :=
  ∀ (s : State) (c : Chan) (input : LimitInput) (active : Bool), s.inReset = false → s.haltsSettled → s.queuesShaped →
    let ch := s.chan c
    let q := ch.limit input
    let level := if ch.cfg.limitPolarity = .activeHigh then q.level else !q.level
    let comes := q.completes level ch.cfg.limitFilter s.now = true ∧ q.qualified ≠ active
    let changed := ch.setLimit input { q with before := none, qualified := active }
    let forward := (input = .limp ∧ ch.cfg.limpEnable = true) ∨ (input = .limn ∧ ch.cfg.limnEnable = true)
    let acts := active = true ∧ forward ∧ (ch.state = .running ∨ ch.state = .stopping)
      ∧ ∃ x, ch.resolved = some x ∧ (x.positive = true ↔ input = .limp)
    (¬comes → Answers (exec (.limitQualifiedChange c input active) s) fun t =>
      t = { s with stall := t.stall, irq := t.irq, messages := t.messages })
    ∧ (comes → ¬acts → Answers (exec (.limitQualifiedChange c input active) s) fun t =>
      t.chan c = changed ∧ (∀ d, d ≠ c → t.chan d = s.chan d)
      ∧ t = { s with chans := t.chans, stall := t.stall, irq := t.irq, messages := t.messages })
    ∧ (comes → acts → ∀ m, ch.headMove? = some m → Answers (exec (.limitQualifiedChange c input active) s) fun t =>
      let notice := s.notice noticeLimitKind 0 (chanByte c) (s.position c) (if input = .limp then 0 else 1) m.tag
      let told : List Cpl := if s.notices < 16 then [{ notice with lost := BitVec.ofNat 8 s.lost }] else []
      let flushed := ch.queue.tail.filterMap (cancelled? t c)
      let rate := auxNat (if ch.pgn.emitted = 0 then 0 else isqrt ch.pgn.rateSq)
      let flags : Flags := {
        unbound := ch.binding == .unbound, short := false, overridden := m.overridden, watchHalt := ch.watchHalt }
      let stopped (pgn : Pgn) (kept : Option Kept) : Channel :=
        { changed.emptied .held with dwellStart := none, pgn := pgn, kept := kept }
      (ch.pgn.pulseEnd = none →
          t.chan c = stopped { ch.pgn with
            rateSq := 0, phase := .none, remaining := 0, emitted := 0, schedule := none, stopMode := .none,
            settleEnd := none, lastEnd := none, stopHold := ch.pgn.fell } none
          ∧ ∃ more, t.posting = s.posting ++ told ++ flushed ++ s.done .main ReqKind.move.code m.tag .limit flags
            (chanByte c) (s.position c) (auxNat ch.pgn.emitted) rate :: more)
      ∧ (ch.pgn.pulseEnd ≠ none →
          t.chan c = stopped { ch.pgn with
              stopMode := .abrupt, phase := .none, schedule := none, settleEnd := none, lastEnd := none }
            (some {
              tag := m.tag, status := .limit, flags := flags, steps := auxNat ch.pgn.emitted, rate := rate })
          ∧ ∃ more, t.posting = s.posting ++ told ++ flushed ++ more)
      ∧ (s.notices < 16 → t.lost = 0) ∧ (16 ≤ s.notices → t.lost = min 255 (s.lost + 1))
      ∧ t = { s with
          chans := t.chans, slots := t.slots, openList := t.openList, xsyncLow := t.xsyncLow, xsyncRun := t.xsyncRun,
          halts := t.halts, posting := t.posting, lost := t.lost, stall := t.stall, irq := t.irq,
          messages := t.messages })

/-- A qualified edge (R33, R98, R100, R101, R103, R108, R111), which counts once the pin has held for its filter time: the
qualified level follows, and the ARMED EDGE watches that agree with it fire, the lowest first; a watch it fires changes state,
writes the AUX latch unless the ESTOP latch is set, and hands over its notice, in whose position a leading edge of that instant
counts, also one taken after it (log entry 28). The model's choice: log entries 5 and 6. -/
def Obligations.QualifiedEdgesFireWatches : Prop :=
  ∀ (s : State) (input : CapIx) (rise : Bool), s.inReset = false → s.haltsSettled →
    let q := s.caps[input]
    let comes := q.completes q.level s.capFilter[input] s.now = true ∧ q.qualified ≠ rise
    let evaluates := s.part = .running ∨ s.part = .draining
    let agrees (w : Watch) := w.state = .armed ∧ ∃ edge rearm, w.cond = .edge input edge rearm
      ∧ (edge = .both ∨ (edge = .rise ∧ rise = true) ∨ (edge = .fall ∧ rise = false))
    let v := { s with caps := s.caps.set input { q with before := none, qualified := rise } }
    (¬comes → Answers (exec (.qualifiedEdge input rise) s) fun t =>
      t = { s with stall := t.stall, irq := t.irq, messages := t.messages })
    ∧ (comes → ∃ fired : List WatchIx, fired.Pairwise (· < ·)
        ∧ (∀ i, i ∈ fired ↔ evaluates ∧ ∃ w, s.watches[i] = some w ∧ agrees w)
        ∧ exec (.qualifiedEdge input rise) s = .next (finish (eachAct fired (fireWatch rise) v).settle))
    ∧ (comes → (¬evaluates ∨ ∀ (i : WatchIx) w, s.watches[i] = some w → ¬agrees w) →
      Answers (exec (.qualifiedEdge input rise) s) fun t =>
        t.caps[input] = { q with before := none, qualified := rise }
        ∧ (∀ j : CapIx, j ≠ input → t.caps[j] = s.caps[j])
        ∧ t = { s with caps := t.caps, stall := t.stall, irq := t.irq, messages := t.messages })
    ∧ ∀ (i : WatchIx) (w : Watch), comes → evaluates → s.watches[i] = some w → agrees w →
      (∀ (j : WatchIx) x, j ≠ i → s.watches[j] = some x → ¬agrees x) →
      w.decel = 0 → w.abrupt = 0 → w.arm = none →
      Answers (exec (.qualifiedEdge input rise) s) fun t =>
        let notice := (s.notice noticeWatch (auxNat i.val) (chanByte w.channel) (s.position w.channel)
          (watchAuxA { w with state := w.cond.firedState } rise) (auxMask t.aux)).showing s w.channel
        t.caps[input] = { q with before := none, qualified := rise }
        ∧ (∀ j : CapIx, j ≠ input → t.caps[j] = s.caps[j])
        ∧ t.watches[i] = some { w with state := w.cond.firedState }
        ∧ (∀ j : WatchIx, j ≠ i → t.watches[j] = s.watches[j])
        ∧ t.aux = (if s.estopLatch then s.aux else (s.aux ||| w.auxSet) &&& ~~~w.auxClear)
        ∧ (w.notify = false → t.posting = s.posting ∧ t.lost = s.lost)
        ∧ (w.notify = true → s.notices < 16 →
            t.lost = 0 ∧ t.posting = s.posting ++ [{ notice with lost := BitVec.ofNat 8 s.lost }])
        ∧ (w.notify = true → 16 ≤ s.notices → t.lost = min 255 (s.lost + 1) ∧ t.posting = s.posting)
        ∧ t = { s with
            caps := t.caps, watches := t.watches, aux := t.aux, posting := t.posting, lost := t.lost, stall := t.stall,
            irq := t.irq, messages := t.messages }

/-- Watches (R98, R99, R101 to R106, R111): in RUNNING and DRAINING a step fires the ARMED POSITION watches of its channel with
P at the new position and a sense that agrees, the lowest first, and re-arms each COOLING watch that stands at least H from
its P; a firing watch changes state, writes the AUX latch unless the ESTOP latch is set, hands over its notice, gives its
DECEL and then its ABRUPT halt orders, and makes a DORMANT ARM target ARMED. The step of a channel's schedule is such a step.
The model's choice: log entry 5 for the order within one instant, log entry 28 for a leading edge of that instant. -/
def Obligations.WatchesFireAndAct : Prop :=
  (∀ (s : State) (c : Chan) (position : Word) (positive : Bool),
    let a := takeStep c position positive s
    (¬(s.part = .running ∨ s.part = .draining) → a = (s, []))
    ∧ (s.part = .running ∨ s.part = .draining → ∃ (u : State) (fired : List WatchIx),
        u = { s with watches := u.watches } ∧ Rearmed s u c position ∧ fired.Pairwise (· < ·)
        ∧ (∀ i, i ∈ fired ↔ ∃ w sense rearm, s.watches[i] = some w ∧ w.state = .armed ∧ w.channel = c
            ∧ w.cond = .position position sense rearm
            ∧ (sense = .either ∨ (sense = .up ∧ positive = true) ∨ (sense = .down ∧ positive = false)))
        ∧ a = eachAct fired (fireWatch positive) u)
    ∧ ∀ w : Watch, rearms w c position = true ↔ w.state = .cooling ∧ w.channel = c
        ∧ ∃ p sense h, w.cond = .position p sense (some h) ∧ h ≤ (position.toInt - p.toInt).natAbs)
  ∧ (∀ (s : State) (i : WatchIx) (w : Watch) (up : Bool), s.watches[i] = some w →
    let t := (fireWatch up i s).1
    let fired : Watch := { w with state :=
      match w.cond with
      | .position _ _ none => .spent
      | .position _ _ (some _) => .cooling
      | .edge _ _ rearm => if rearm then .armed else .spent }
    let auxA : Nat :=
      match w.cond with
      | .position _ _ _ => (if up then 2 else 0) + 256 * watchCode (some fired)
      | .edge input _ _ => 1 + (if up then 2 else 0) + 16 * input.val + 256 * watchCode (some fired)
    let record := { (s.notice noticeWatch (auxNat i.val) (chanByte w.channel) (s.position w.channel) (auxNat auxA)
      (auxMask t.aux)).showing s w.channel with lost := BitVec.ofNat 8 s.lost }
    let told : List Cpl := if w.notify = true ∧ s.notices < 16 then [record] else []
    t.watches[i] = some fired
    ∧ (∀ j, j ≠ i → w.arm ≠ some j → t.watches[j] = s.watches[j])
    ∧ (∀ j, j ≠ i → w.arm = some j → t.watches[j] =
        (s.watches[j]).map fun x => if x.state = .dormant then { x with state := .armed } else x)
    ∧ t.aux = (if s.estopLatch then s.aux else (s.aux ||| w.auxSet) &&& ~~~w.auxClear)
    ∧ (∃ more, t.posting = s.posting ++ told ++ more)
    ∧ t.lost = (if w.notify then if s.notices < 16 then 0 else min 255 (s.lost + 1) else s.lost)
    ∧ (∀ d,
        let slowed := if hasChan w.decel d then (haltOrder d .decel true s).1 else s
        let stopped := if hasChan w.abrupt d then (haltOrder d .abrupt true slowed).1 else slowed
        t.chan d = stopped.chan d)
    ∧ t = { s with
        chans := t.chans, watches := t.watches, aux := t.aux, posting := t.posting, lost := t.lost })
  ∧ ∀ (s : State) (c : Chan) (x : Sched), s.inReset = false →
    let ch := s.chan c
    let next := if ch.positive then s.position c + 1 else s.position c - 1
    ch.state = .running ∨ ch.state = .stopping → ch.pgn.schedule = some x → x.due ≤ s.now →
    ∃ u : State, u = { s with chans := u.chans, posting := s.posting.map fun r => r.atStep c s.now next }
      ∧ (∀ d, d ≠ c → u.chan d = s.chan d) ∧ u.position c = next
      ∧ (u.chan c).queue = ch.queue ∧ (u.chan c).state = ch.state ∧ (u.chan c).cfg = ch.cfg
      ∧ (∀ m, ch.headMove? = some m → 1 ≤ ch.pgn.remaining → Stepped ch m x s.now (u.chan c))
      ∧ (let a := takeStep c next ch.positive u
        exec (.stepEmission c) s = .next (finish (settleRounds 19 a.2 a.1)))

/-- The ends of a slot (R80 to R84, R89). Once XSYNC has read high for 1 µs, XSYNC_QUALIFIED releases the SYNCING slot: it becomes
FREE, every member leaves its MARKER for its next entry or IDLE, and the RENDEZVOUS completes OK; before that it does
nothing. At its expiry instant a GATHERING or SYNCING slot fails with EXPIRED: it becomes FREE, the RENDEZVOUS completes, and
every member receives a DECEL halt order, so WAITING and DWELLING members are HELD and RUNNING members stop. A slot whose
member is withdrawn fails with MEMBER_LOST for that member, or with CANCELLED or ABORTED, and the other members are halted.
The model's choice: log entries 2, 5, 22 and 28. -/
def Obligations.SlotsEndInTime : Prop :=
  (∀ s : State, s.inReset = false → s.haltsSettled →
    let nothing (c : Instr) := Answers (exec c s) fun t =>
      t = { s with stall := t.stall, irq := t.irq, messages := t.messages }
    (syncingSlot? s = none ∨ (∀ start, s.xsyncRun = some start → s.now < start + 40) → nothing .xsyncQualified)
    ∧ (∀ (i : SlotIx) (sl : Slot) (start : Nat), syncingSlot? s = some i → s.slots[i] = some sl →
        s.xsyncRun = some start → start + 40 ≤ s.now →
        let members := chansOf sl.members
        let freed := { s.setSlot i none with
          openList := s.openList.erase i, xsyncLow := if sl.external then false else s.xsyncLow,
          xsyncRun := if sl.external then none else s.xsyncRun }
        let first := lowestChan sl.members
        let record (t : State) := (t.done .main ReqKind.rendezvous.code sl.tag .ok .clear (chanByte first)
          (t.position first) (auxNat i.val) (auxMask sl.arrived)).showing t first
        exec .xsyncQualified s = .next (finish (releaseSlot i s).settle)
        ∧ ((∀ c ∈ members, (s.chan c).state = .waiting ∧ ∃ behind, (s.chan c).queue = .marker i :: behind) →
          let a := eachAct members (fun c u => runHead c (u.chan c).queue.tail u) freed
          releaseSlot i s = ({ a.1 with posting := a.1.posting ++ [record a.1] }, a.2))
        ∧ ((∀ c ∈ members, (s.chan c).state = .waiting ∧ (s.chan c).queue = [.marker i]) →
          Answers (exec .xsyncQualified s) fun t =>
            (∀ c ∈ members, t.chan c = (s.chan c).emptied .idle) ∧ (∀ c, c ∉ members → t.chan c = s.chan c)
            ∧ t.posting = s.posting ++ [record s]
            ∧ t = { freed with
                chans := t.chans, posting := t.posting, stall := t.stall, irq := t.irq, messages := t.messages }))
    ∧ (∀ i : SlotIx, (∀ sl e, s.slots[i] = some sl → sl.expiry = some e → sl.state ≠ .opened → s.now < e) →
        nothing (.rendezvousExpiry i))
    ∧ ∀ (i : SlotIx) (sl : Slot) (e : Nat), s.slots[i] = some sl → sl.state = .gathering ∨ sl.state = .syncing →
        sl.expiry = some e → e ≤ s.now → s.estopLatch = false →
        Answers (exec (.rendezvousExpiry i) s) fun t =>
          let halted (c : Chan) := hasChan sl.members c = true ∧ (s.chan c).shaped = true
          t.slots[i] = none
          ∧ (∀ c, hasChan sl.members c = true → t.chan c = (haltOrder c .decel false s).1.chan c)
          ∧ (∀ c, halted c → (s.chan c).state ∈ [ChanState.idle, .dwelling, .waiting] →
              (t.chan c).state = .held ∧ (t.chan c).queue = [] ∧ (t.chan c).pgn = (s.chan c).pgn)
          ∧ (∀ c, halted c → (s.chan c).state = .running →
              (t.chan c).state = if (s.chan c).pgn.emitted = 0 then .held else .stopping)
          ∧ (∀ c, halted c → (s.chan c).state ∈ [ChanState.stopping, .held, .disabled] → t.chan c = s.chan c)
          ∧ (∃ more, t.posting = s.posting ++ slotFailure s .expired i sl :: more)
          ∧ t = { s with
              slots := t.slots, openList := t.openList, xsyncLow := t.xsyncLow, xsyncRun := t.xsyncRun,
              chans := t.chans, posting := t.posting, stall := t.stall, irq := t.irq, messages := t.messages }
          ∧ ((∀ c j, hasChan sl.members c = true → .marker j ∈ (s.chan c).queue → j = i) →
              t.openList = s.openList.erase i ∧ (∀ j : SlotIx, j ≠ i → t.slots[j] = s.slots[j])
              ∧ (∀ c, hasChan sl.members c = false → t.chan c = s.chan c)
              ∧ t.xsyncLow = (if sl.external then false else s.xsyncLow)
              ∧ t.xsyncRun = (if sl.external then none else s.xsyncRun)
              ∧ rendezvousRecords (t.posting.drop s.posting.length) = [slotFailure s .expired i sl]))
  ∧ ∀ (s : State) (c : Chan) (i : SlotIx),
    let a := takeWithdrawal c i s
    let t := a.1
    ((∀ sl, s.slots[i] = some sl → hasChan sl.members c = false) → a = (s, []))
    ∧ ∀ sl, s.slots[i] = some sl → hasChan sl.members c = true →
      let status : Status :=
        if s.estopLatch then .aborted
        else if s.part = .draining ∨ s.part = .failed then .cancelled
        else .memberLost
      let reported := if status = .memberLost then c else lowestChan sl.members
      let mode : StopMode := if s.estopLatch then .abrupt else .decel
      t.slots[i] = none ∧ (∀ j : SlotIx, j ≠ i → t.slots[j] = s.slots[j]) ∧ t.openList = s.openList.erase i
      ∧ (∃ more, t.posting = s.posting ++ (s.done .main ReqKind.rendezvous.code sl.tag status .clear (chanByte reported)
          (s.position reported) (auxNat i.val) (auxMask sl.arrived)).showing s reported :: more
        ∧ rendezvousRecords more = [])
      ∧ (∀ d, hasChan sl.members d = true → d ≠ c → t.chan d = (haltOrder d mode false s).1.chan d)
      ∧ (∀ d, hasChan sl.members d = false ∨ d = c → t.chan d = s.chan d)
      ∧ t = { s with
          slots := t.slots, openList := t.openList, xsyncLow := if sl.external then false else s.xsyncLow,
          xsyncRun := if sl.external then none else s.xsyncRun, chans := t.chans, posting := t.posting }

/-! ### A channel's own timing -/

/-- The arithmetic of the rate law: the integer root (R30), the period (R31), the pulse width against it (R32), the
candidate (R36) and the steps down (R37); and the binding decision for a head with CHAIN (R21 to R23). -/
def Obligations.RateLawArithmetic : Prop :=
  (∀ n : Nat, isqrt n * isqrt n ≤ n ∧ n < (isqrt n + 1) * (isqrt n + 1))
  ∧ (∀ rate : Nat, stepPeriod (rate ^ 2) = 40000000 / rate)
  ∧ (∀ (cfg : ChanConfig) (rate : Nat), cfg.valid = true → 1 ≤ rate → rate ≤ cfg.maxRate →
      2 * (40 * cfg.pulseWidth) ≤ stepPeriod (rate ^ 2))
  ∧ (∀ v vc a b : Nat, (v < vc → candidateSq v vc a b = min (v + 2 * a) vc) ∧ (v = vc → candidateSq v vc a b = vc)
      ∧ (vc < v → candidateSq v vc a b = max (v - 2 * b) vc))
  ∧ (∀ w vt b n : Nat, 1 ≤ b → (stepsDown w vt b ≤ n ↔ w ≤ vt + 2 * b * n))
  ∧ ∀ (ch : Channel) (m : MoveEntry) (r : Resolved) (ve : Nat), m.exitRate = some ve →
    (∀ n place, bindingCandidate ch.queue.tail 1 = some (.move n, place) →
      let x := resolveMove n r.endPos
      let joins := x.steps ≠ 0 ∧ x.positive = r.positive ∧ softLimitOk ch.cfg x.endPos = true
        ∧ limitBlocks ch x.positive = false ∧ max m.profile.vs n.profile.vs ≤ min ve n.profile.vc
      (joins → decideBinding ch m r = .bound (min ve n.profile.vc) (max m.profile.vs n.profile.vs) place x)
      ∧ (¬joins → decideBinding ch m r = .unbound))
    ∧ ((∀ n place, bindingCandidate ch.queue.tail 1 ≠ some (.move n, place)) → decideBinding ch m r = .unbound)

/-- The emission of a scheduled step at the instant it falls due, and the choice of the next one at its boundary, with the
binding decision where it falls there (R31, R33, R36 to R39, R43, R44), as Stepped says clause by clause; STEP_EMISSION has no
effect where no step is due. And what the step does to the records that wait: one made at that instant to show that channel
reports the count that includes the step, and every other record is as it was (R33). The model's choice: log entries 2 and 28.
-/
def Obligations.StepEmissionAndNextRate : Prop :=
  (∀ (s : State) (c : Chan), s.inReset = false → s.haltsSettled →
    let ch := s.chan c
    let next := if ch.positive then s.position c + 1 else s.position c - 1
    let moving := ch.state = .running ∨ ch.state = .stopping
    ((moving → ∀ x, ch.pgn.schedule = some x → s.now < x.due) → Answers (exec (.stepEmission c) s) fun t =>
      t = { s with stall := t.stall, irq := t.irq, messages := t.messages })
    ∧ ∀ (x : Sched) (m : MoveEntry), moving → ch.pgn.schedule = some x → x.due ≤ s.now → ch.headMove? = some m →
      1 ≤ ch.pgn.remaining → NoneFires s c next ch.positive →
      Answers (exec (.stepEmission c) s) fun t =>
        Stepped ch m x s.now (t.chan c)
        ∧ Rearmed s t c next
        ∧ t.posting = s.posting.map (fun r => r.atStep c s.now next)
        ∧ (∀ d, d ≠ c → t.chan d = s.chan d)
        ∧ t = { s with
            chans := t.chans, watches := t.watches, posting := t.posting, stall := t.stall, irq := t.irq,
            messages := t.messages })
  ∧ ∀ (r : Cpl) (c : Chan) (now : Nat) (position : Word),
    (∀ s : State, r.showing s c = { r with shows := some (c, s.now) })
    ∧ (r.shows ≠ some (c, now) → r.atStep c now position = r)
    ∧ (r.shows = some (c, now) → r.status = .cancelled → r.kind = 3 →
        r.atStep c now position = { r with position := position, auxA := position })
    ∧ (r.shows = some (c, now) → ¬(r.status = .cancelled ∧ r.kind = 3) →
        r.atStep c now position = { r with position := position })

/-- The end of SETTLE (R34, R35): at its instant the first step is emitted at Vs, as a scheduled step due then would be, or waits
for the hold after an abrupt stop (R45); SETTLE_END has no effect where no SETTLE ends. And boundary 0 of a segment (R35,
R37, R39): the binding decision where the binding point falls there, and the phase. The model's choice: log entries 2 and
13, and log entry 28 for the records of that instant that count the step (R33). -/
def Obligations.SettleEndEmitsTheFirstStep : Prop :=
  (∀ (s : State) (c : Chan), s.inReset = false → s.haltsSettled →
    let ch := s.chan c
    let next := if ch.positive then s.position c + 1 else s.position c - 1
    let settling := ch.state = .running ∧ ch.pgn.phase = .settle
    ((settling → ∀ e, ch.pgn.settleEnd = some e → s.now < e) → Answers (exec (.settleEnd c) s) fun t =>
      t = { s with stall := t.stall, irq := t.irq, messages := t.messages })
    ∧ ∀ (e : Nat) (m : MoveEntry), settling → ch.pgn.settleEnd = some e → e ≤ s.now → ch.headMove? = some m →
      let vsSq := m.profile.vs ^ 2
      let zero := boundaryZero { ch with pgn := { ch.pgn with settleEnd := none } } vsSq
      let started (due : Nat) : Channel :=
        { zero with pgn := { zero.pgn with schedule := some { due := due, rateSq := vsSq } } }
      (s.now < holdUntil ch → Answers (exec (.settleEnd c) s) fun t =>
        t.chan c = started (holdUntil ch) ∧ (∀ d, d ≠ c → t.chan d = s.chan d)
        ∧ t = { s with chans := t.chans, stall := t.stall, irq := t.irq, messages := t.messages })
      ∧ (holdUntil ch ≤ s.now → exec (.settleEnd c) s = exec (.stepEmission c) (s.setChan c (started s.now)))
      ∧ (holdUntil ch ≤ s.now → NoneFires s c next ch.positive → Answers (exec (.settleEnd c) s) fun t =>
        t.position c = next ∧ (t.chan c).pgn.rateSq = vsSq
        ∧ (t.chan c).pgn.pulseEnd = some (s.now + 40 * ch.cfg.pulseWidth)
        ∧ (t.chan c).pgn.emitted = ch.pgn.emitted + 1 ∧ (t.chan c).pgn.remaining = ch.pgn.remaining - 1
        ∧ (t.chan c).pgn.settleEnd = none ∧ (t.chan c).pgn.phase ≠ .settle ∧ Rearmed s t c next
        ∧ t.chan c = { ch with binding := (t.chan c).binding, pgn := (t.chan c).pgn }
        ∧ t.posting = s.posting.map (fun r => r.atStep c s.now next)
        ∧ (∀ d, d ≠ c → t.chan d = s.chan d)
        ∧ t = { s with
            chans := t.chans, watches := t.watches, posting := t.posting, stall := t.stall, irq := t.irq,
            messages := t.messages }))
  ∧ ∀ (ch : Channel) (m : MoveEntry) (uSq : Nat), ch.headMove? = some m →
    let z := boundaryZero ch uSq
    let left := ch.pgn.remaining
    let b := m.profile.b
    let vcSq := m.profile.vc ^ 2
    let vtSq := exitTarget z.binding m ^ 2
    z = { ch with binding := z.binding, pgn := { ch.pgn with phase := z.pgn.phase, lastVtSq := vtSq } }
    ∧ (ch.binding ≠ .pending → z.binding = ch.binding)
    ∧ (ch.binding = .pending → ∀ r, ch.resolved = some r →
        (left ≠ 1 → stepsDown uSq (m.profile.vs ^ 2) b ≤ left - 1 → z.binding = .pending)
        ∧ (left = 1 ∨ left - 1 < stepsDown uSq (m.profile.vs ^ 2) b → z.binding = decideBinding ch m r))
    ∧ (stepsDown uSq vtSq b ≤ left - 1 →
        z.pgn.phase = if uSq < vcSq then .rampUp else if uSq = vcSq then .cruise else .rampDown)
    ∧ (left - 1 < stepsDown uSq vtSq b → z.pgn.phase = .final)
    ∧ (∀ vt minimum place x, z.binding = .bound vt minimum place x → exitTarget z.binding m = vt)
    ∧ (z.headBound = false → exitTarget z.binding m = m.profile.vs)

/-- The end of a STEP pulse at its instant (R32, R45, R56): STEP falls; a channel stopped abruptly comes to rest with the hold
counted from that instant, and its head's completion is handed over with the position and timestamp of that instant; then
the HALTs that waited for that channel alone complete (R60). Nothing else changes, and PULSE_END has no effect where no
pulse ends. The model's choice: log entries 2 and 5, log entry 24 for the field that keeps the instant of the fall, and log entry
25 for the counts cleared at rest. -/
def Obligations.PulseEndBringsRest : Prop :=
  ∀ (s : State) (c : Chan), s.inReset = false → s.haltsSettled →
    let ch := s.chan c
    ((∀ e, ch.pgn.pulseEnd = some e → s.now < e) → Answers (exec (.pulseEnd c) s) fun t =>
      t = { s with stall := t.stall, irq := t.irq, messages := t.messages })
    ∧ ∀ e, ch.pgn.pulseEnd = some e → e ≤ s.now →
      let low : Pgn := { ch.pgn with pulseEnd := none, fell := some s.now }
      let rested : Pgn := { low with
        rateSq := 0, phase := .none, remaining := 0, emitted := 0, schedule := none, stopMode := .none,
        settleEnd := none, lastEnd := none, stopHold := some s.now }
      let handed : List Cpl := ch.kept.toList.map fun k =>
        s.done .main ReqKind.move.code k.tag k.status k.flags (chanByte c) (s.position c) k.steps k.rate
      Answers (exec (.pulseEnd c) s) fun t =>
        t.chan c = { ch with kept := none, pgn := if ch.pgn.stopMode = .abrupt then rested else low }
        ∧ (∀ d, d ≠ c → t.chan d = s.chan d)
        ∧ (ch.state = .held → t.halts = haltsAfterRest s c ∧ t.posting = s.posting ++ handed ++ haltsDoneAtRest s c)
        ∧ (ch.state ≠ .held → t.halts = s.halts ∧ t.posting = s.posting ++ handed)
        ∧ t = { s with
            chans := t.chans, halts := t.halts, posting := t.posting, stall := t.stall, irq := t.irq,
            messages := t.messages }

/-- The segment end at its instant (R9, R15, R24, R42, R69): an unbound head completes OK, the limit changes of that instant are
taken, and the entries behind it run from rest, or the channel becomes IDLE; a bound head completes OK, the MARKs behind it
are applied and complete in queue order with the head's position, and its successor takes the head and emits its first step
at once, as a scheduled step due then would be. SEGMENT_END has no effect where no period runs out. The model's choice: log
entries 2 and 5, log entry 13 for a successor under the hold of R45, which stands at boundary 0 with its step scheduled, and log
entry 28 for the records of that instant that count the step (R33). -/
def Obligations.SegmentEndCompletesTheHead : Prop :=
  ∀ (s : State) (c : Chan), s.inReset = false → s.haltsSettled →
    let ch := s.chan c
    let moving := ch.state = .running ∨ ch.state = .stopping
    ((moving → ch.pgn.remaining = 0 → ∀ e, ch.pgn.lastEnd = some e → s.now < e) →
      Answers (exec (.segmentEnd c) s) fun t => t = { s with stall := t.stall, irq := t.irq, messages := t.messages })
    ∧ ∀ (e : Nat) (m : MoveEntry) (rest : List Entry), ch.state = .running → ch.pgn.remaining = 0 →
      ch.pgn.lastEnd = some e → e ≤ s.now → ch.queue = .move m :: rest →
      let flags : Flags := {
        unbound := ch.binding == .unbound, short := decide (ch.pgn.lastVtSq < ch.pgn.rateSq), overridden := m.overridden,
        watchHalt := ch.watchHalt }
      let record := s.done .main ReqKind.move.code m.tag .ok flags (chanByte c) (s.position c) (auxNat ch.pgn.emitted)
        (auxNat (if ch.pgn.emitted = 0 then 0 else isqrt ch.pgn.rateSq))
      let taken := ch.takeLimits s.now
      (∀ input, taken.limit input =
          let q := ch.limit input
          let level := if ch.cfg.limitPolarity = .activeHigh then q.level else !q.level
          if q.completes level ch.cfg.limitFilter s.now then { q with before := none, qualified := !q.qualified } else q)
      ∧ (ch.headBound = false →
        let ended : Channel := { ch with
          limp := taken.limp, limn := taken.limn
          pgn := { ch.pgn with
            rateSq := 0, phase := .none, remaining := 0, emitted := 0, schedule := none, stopMode := .none,
            settleEnd := none, lastEnd := none } }
        exec (.segmentEnd c) s
          = .next (finish (runHead c rest { s.setChan c ended with posting := s.posting ++ [record] }).settle)
        ∧ (rest = [] → Answers (exec (.segmentEnd c) s) fun t =>
          t.chan c = ended.emptied .idle ∧ t.posting = s.posting ++ [record] ∧ (∀ d, d ≠ c → t.chan d = s.chan d)
          ∧ t = { s with
              chans := t.chans, posting := t.posting, stall := t.stall, irq := t.irq, messages := t.messages }))
      ∧ ∀ vt minimum x (marks : List Entry) (n : MoveEntry) (behind : List Entry),
        ch.binding = .bound vt minimum (marks.length + 1) x → rest = marks ++ .move n :: behind →
        (∀ k ∈ marks, ∃ tag set clear, k = .mark tag set clear) →
        let next := if ch.positive then s.position c + 1 else s.position c - 1
        let entrySq := max ch.pgn.rateSq (n.profile.vs ^ 2)
        let zero := boundaryZero { ch with
          queue := .move n :: behind, resolved := some x
          binding := if n.exitRate.isSome then .pending else .notChained
          watchHalt := false
          pgn := { ch.pgn with remaining := x.steps, emitted := 0, schedule := none, lastEnd := none } } entrySq
        let started (due : Nat) : Channel :=
          { zero with pgn := { zero.pgn with schedule := some { due := due, rateSq := entrySq } } }
        let aux := marksAux marks s.aux
        let posting := s.posting ++ record :: markRecords s c marks s.aux
        (holdUntil ch ≤ s.now → exec (.segmentEnd c) s
          = exec (.stepEmission c) { s.setChan c (started s.now) with aux := aux, posting := posting })
        ∧ (s.now < holdUntil ch → Answers (exec (.segmentEnd c) s) fun t =>
          t.chan c = started (holdUntil ch) ∧ (∀ d, d ≠ c → t.chan d = s.chan d)
          ∧ t = { s with
              chans := t.chans, aux := aux, posting := posting, stall := t.stall, irq := t.irq, messages := t.messages })
        ∧ (holdUntil ch ≤ s.now → NoneFires s c next ch.positive → Answers (exec (.segmentEnd c) s) fun t =>
          t.position c = next ∧ (t.chan c).pgn.rateSq = entrySq
          ∧ (t.chan c).pgn.pulseEnd = some (s.now + 40 * ch.cfg.pulseWidth)
          ∧ (t.chan c).pgn.emitted = 1 ∧ (t.chan c).pgn.remaining = x.steps - 1
          ∧ (t.chan c).pgn.dirHigh = ch.pgn.dirHigh ∧ Rearmed s t c next
          ∧ t.chan c = { zero with binding := (t.chan c).binding, pgn := (t.chan c).pgn }
          ∧ (∀ d, d ≠ c → t.chan d = s.chan d)
          ∧ t = { s with
              chans := t.chans, watches := t.watches, aux := aux, posting := posting.map fun r => r.atStep c s.now next,
              stall := t.stall, irq := t.irq, messages := t.messages })

/-- Rest under the stopping law at its instant (R44, R55, R57, R60): the STOPPING channel enters HELD with an empty queue, its
head completes, with OK when it had emitted all its steps and with HALTED when it had not, and then the HALTs that waited for
that channel alone complete. STOP_REST has no effect elsewhere. The model's choice: log entries 2 and 5, and log entry
25 for the counts cleared at rest. -/
def Obligations.StopRestHoldsTheChannel : Prop :=
  ∀ (s : State) (c : Chan), s.inReset = false → s.haltsSettled →
    let ch := s.chan c
    ((ch.state = .stopping → ch.pgn.remaining ≠ 0 → ∀ e, ch.pgn.lastEnd = some e → s.now < e) →
      Answers (exec (.stopRest c) s) fun t => t = { s with stall := t.stall, irq := t.irq, messages := t.messages })
    ∧ ∀ (e : Nat) (m : MoveEntry), ch.state = .stopping → ch.headMove? = some m → ch.pgn.lastEnd = some e → e ≤ s.now →
      let flags : Flags := {
        unbound := ch.binding == .unbound, short := false, overridden := m.overridden, watchHalt := ch.watchHalt }
      let rests (status : Status) (t : State) :=
        let record := s.done .main ReqKind.move.code m.tag status flags (chanByte c) (s.position c)
          (auxNat ch.pgn.emitted) (auxNat (if ch.pgn.emitted = 0 then 0 else isqrt ch.pgn.rateSq))
        t.chan c = { ch.emptied .held with
          pgn := { ch.pgn with
            rateSq := 0, phase := .none, remaining := 0, emitted := 0, schedule := none, stopMode := .none,
            settleEnd := none, lastEnd := none } }
        ∧ (ch.pgn.pulseEnd = none →
            t.halts = haltsAfterRest s c ∧ t.posting = s.posting ++ record :: haltsDoneAtRest s c)
        ∧ (ch.pgn.pulseEnd ≠ none → t.halts = s.halts ∧ t.posting = s.posting ++ [record])
        ∧ (∀ d, d ≠ c → t.chan d = s.chan d)
        ∧ t = { s with
            chans := t.chans, halts := t.halts, posting := t.posting, stall := t.stall, irq := t.irq,
            messages := t.messages }
      (ch.pgn.remaining ≠ 0 → Answers (exec (.stopRest c) s) (rests .halted))
      ∧ (ch.pgn.remaining = 0 → Answers (exec (.segmentEnd c) s) (rests .ok))

/-- The other timers (R9, R16, R145): a DWELL ends its duration in microseconds after its start, it completes with its full
duration, and the entries behind it run, or the channel becomes IDLE; the coalescing delay, counted in microseconds from the
oldest unannounced write, sets CPL and clears the coalescing state. Before its instant neither has an effect. The model's
choice: log entries 2 and 14. -/
def Obligations.TimersExpire : Prop :=
  ∀ s : State, s.inReset = false → s.haltsSettled →
    let nothing (c : Instr) := Answers (exec c s) fun t =>
      t = { s with stall := t.stall, irq := t.irq, messages := t.messages }
    (∀ c : Chan,
      let ch := s.chan c
      ((∀ tag duration rest start, ch.state = .dwelling → ch.queue = .dwell tag duration :: rest →
          ch.dwellStart = some start → s.now < start + 40 * duration) → nothing (.dwellExpiry c))
      ∧ ∀ tag duration rest start, ch.state = .dwelling → ch.queue = .dwell tag duration :: rest →
        ch.dwellStart = some start → start + 40 * duration ≤ s.now →
        let record := s.done .main ReqKind.dwell.code tag .ok .clear (chanByte c) (s.position c) (auxNat duration) 0
        exec (.dwellExpiry c) s = .next (finish (runHead c rest
          { s.setChan c { ch with dwellStart := none } with posting := s.posting ++ [record] }).settle)
        ∧ (rest = [] → Answers (exec (.dwellExpiry c) s) fun t =>
          t.chan c = { ch.emptied .idle with dwellStart := none } ∧ t.posting = s.posting ++ [record]
          ∧ (∀ d, d ≠ c → t.chan d = s.chan d)
          ∧ t = { s with
              chans := t.chans, posting := t.posting, stall := t.stall, irq := t.irq, messages := t.messages }))
    ∧ (∀ first count delay, s.oldest = some first → s.coalescing = some (count, delay) → s.unannounced ≠ 0 →
        s.part = .running ∨ s.part = .draining ∨ s.part = .failed →
        (first + 40 * delay ≤ s.now → Answers (exec .coalescingDelayExpiry s) fun t =>
          t = { s with
            intCause := s.intCause ||| causeCpl, unannounced := 0, oldest := none, stall := t.stall, irq := t.irq,
            messages := t.messages })
        ∧ (s.now < first + 40 * delay → nothing .coalescingDelayExpiry))
    ∧ (s.oldest = none ∨ s.coalescing = none ∨ s.unannounced = 0 ∨ s.part = .off ∨ s.part = .starting →
        nothing .coalescingDelayExpiry)

/-! ### DMA operations -/

/-- Fetches (R117 to R119): a fetch begins at the fetch index, its data is held, and its failure suspends the ring with
an INTAKE_FAULT notice; the end of a dropped read changes nothing. The model's choice: log entry 11 for dropped reads.
-/
def Obligations.FetchesFillTheBuffer : Prop :=
  ∀ (s : State) (ring : Ring), s.inReset = false → s.haltsSettled →
    let r := s.ring ring
    let nothing (c : Instr) := Answers (exec c s) fun t =>
      t = { s with stall := t.stall, irq := t.irq, messages := t.messages }
    let ringOnly (t : State) := (∀ other, other ≠ ring → t.ring other = s.ring other)
      ∧ t = { s with
          mainRing := t.mainRing, ctrlRing := t.ctrlRing, posting := t.posting, lost := t.lost, stall := t.stall,
          irq := t.irq, messages := t.messages }
    (∀ place, s.part = .running → r.buffer = .empty → r.suspended = false → r.place = some place → 1 ≤ r.posted →
      Answers (exec (.fetchBegin ring) s) fun t =>
        t.ring ring = { r with buffer := .fetching (place.base + 64 * r.fetch) } ∧ t.posting = s.posting
        ∧ t.lost = s.lost ∧ ringOnly t)
    ∧ (s.part ≠ .running ∨ r.buffer ≠ .empty ∨ r.suspended = true ∨ r.posted = 0 → nothing (.fetchBegin ring))
    ∧ (∀ address data, r.buffer = .fetching address →
      (Answers (exec (.fetchDone ring .live data) s) fun t =>
        t.ring ring = { r with buffer := .holding data } ∧ t.posting = s.posting ∧ t.lost = s.lost ∧ ringOnly t)
      ∧ Answers (exec (.fetchFault ring .live) s) fun t =>
        t.ring ring = { r with buffer := .empty, suspended := true } ∧ ringOnly t
        ∧ (s.notices < 16 → t.lost = 0 ∧ t.posting = s.posting ++ [{
            s.notice noticeIntakeFault 0 0 0 (auxNat r.fetch) (auxNat (ringCode ring)) with
            lost := BitVec.ofNat 8 s.lost }])
        ∧ (16 ≤ s.notices → t.lost = min 255 (s.lost + 1) ∧ t.posting = s.posting))
    ∧ (∀ data, nothing (.fetchDone ring .dropped data)) ∧ nothing (.fetchFault ring .dropped)

/-- Completion writes (R136, R137, R145, R146): a write begins only in RUNNING or DRAINING with none under way, a record waiting
and space in the ring, and carries the head record with the pass value; when it completes the record leaves the queue, the
write index advances, its credit returns and the causes are set, CPL at the coalescing count or with a delay of 0, URGENT for
a LIMIT, ESTOP or INTAKE_FAULT notice. The model's choice: log entry 11 for dropped writes, and log entry 28 for the bytes of a write
under way, those of the head record as it then stands. -/
def Obligations.CompletionWritesEmptyTheQueue : Prop :=
  ∀ s : State, s.inReset = false → s.haltsSettled →
    let nothing (c : Instr) := Answers (exec c s) fun t =>
      t = { s with stall := t.stall, irq := t.irq, messages := t.messages }
    let writes := s.part = .running ∨ s.part = .draining
    let space (place : RingPlace) :=
      (s.cplWrite + 2 ^ place.log2 - s.cplRetire) % 2 ^ place.log2 < 2 ^ place.log2 - 1
    (¬writes ∨ s.writing ≠ none ∨ s.posting = [] ∨ (∀ place, s.cplPlace = some place → ¬space place) →
      nothing .completionWriteBegin)
    ∧ (s.writing = none ∨ s.posting = [] → nothing (.completionWriteDone .live))
    ∧ nothing (.completionWriteDone .dropped)
    ∧ ∀ (r : Cpl) (rest : List Cpl) (place : RingPlace), s.posting = r :: rest → s.cplPlace = some place → writes →
      let size := 2 ^ place.log2
      (s.writing = none → space place →
        Answers (exec .completionWriteBegin s) fun t =>
          t.writing = some (place.base + 32 * s.cplWrite) ∧ t.writeBytes = some (r.bytes s.pass)
          ∧ t = { s with writing := t.writing, stall := t.stall, irq := t.irq, messages := t.messages })
      ∧ (s.writing ≠ none → s.writeBytes = some (r.bytes s.pass))
      ∧ (s.writing ≠ none → Answers (exec (.completionWriteDone .live) s) fun t =>
        let full : Bool :=
          match s.coalescing with
          | some (count, delay) => decide (delay = 0 ∨ max count 1 ≤ s.unannounced + 1)
          | none => true
        let urgent : Bool := r.notice && (r.kind == 33 || r.kind == 34 || r.kind == 35)
        t.posting = rest ∧ t.writing = none
        ∧ (s.cplWrite + 1 < size → t.cplWrite = s.cplWrite + 1 ∧ t.pass = s.pass)
        ∧ (size ≤ s.cplWrite + 1 → t.cplWrite = 0 ∧ t.pass = !s.pass)
        ∧ (∀ ring, r.charged = some ring → t.ring ring = { s.ring ring with credits := (s.ring ring).credits - 1 })
        ∧ (∀ ring, r.charged ≠ some ring → t.ring ring = s.ring ring)
        ∧ (full = true → t.unannounced = 0 ∧ t.oldest = none)
        ∧ (full = false → t.unannounced = s.unannounced + 1
            ∧ t.oldest = if s.unannounced = 0 then some s.now else s.oldest)
        ∧ t.intCause = s.intCause ||| (if full then causeCpl else 0) ||| (if urgent then causeUrgent else 0)
        ∧ t = { s with
            posting := t.posting, writing := t.writing, cplWrite := t.cplWrite, pass := t.pass, mainRing := t.mainRing,
            ctrlRing := t.ctrlRing, unannounced := t.unannounced, oldest := t.oldest, intCause := t.intCause,
            stall := t.stall, irq := t.irq, messages := t.messages })

/-- A completion write fault (R86, R148, R161): FAULT is set, the part is FAILED with its fault code, intake stops, every
channel that is neither HELD nor DISABLED receives a DECEL order (R54) and every slot fails with CANCELLED in the order of the
open list, and nothing of the ring or the credits moves. The model's choice: log entries 5 and 28. -/
def Obligations.CompletionWriteFaultFailsThePart : Prop :=
  ∀ s : State, s.inReset = false → s.haltsSettled → s.queuesShaped → s.slotsSound → s.writing ≠ none →
    s.part = .running ∨ s.part = .draining →
    let orders := (eachAct allChans (fun c => haltOrder c .decel false) s).1
    Answers (exec (.completionWriteFault .live) s) fun t =>
      t.part = .failed ∧ t.faultCode = .completionWrite ∧ t.intCause = s.intCause ||| causeFault ∧ t.writing = none
      ∧ t.mainRing = { s.mainRing with buffer := .empty } ∧ t.ctrlRing = { s.ctrlRing with buffer := .empty }
      ∧ t.stall = .none ∧ t.openList = []
      ∧ (∃ more, t.posting = s.posting ++ more ∧ rendezvousRecords more = slotFailures s .cancelled)
      ∧ (∀ c, (s.chan c).state = .held ∨ (s.chan c).state = .disabled → t.chan c = s.chan c)
      ∧ (∀ c, (s.chan c).state ∈ [ChanState.idle, .dwelling, .waiting] → (t.chan c).state = .held)
      ∧ (∀ c, (s.chan c).state = .running ∨ (s.chan c).state = .stopping →
          (t.chan c).state = .stopping ∨ (t.chan c).state = .held)
      ∧ (∀ c, t.chan c = (haltOrder c .decel false s).1.chan c)
      ∧ t.posting = orders.posting ++ slotFailures s .cancelled ++ haltsDone s t ∧ t.halts = haltsLeft s t
      ∧ (∀ c, t.position c = s.position c ∧ (t.chan c).cfg = (s.chan c).cfg)
      ∧ t = { s with
          part := t.part, faultCode := t.faultCode, intCause := t.intCause, writing := t.writing,
          mainRing := t.mainRing, ctrlRing := t.ctrlRing, chans := t.chans, slots := t.slots, openList := t.openList,
          xsyncLow := t.xsyncLow, xsyncRun := t.xsyncRun, halts := t.halts, posting := t.posting, stall := t.stall,
          irq := t.irq, messages := t.messages }

/-- The end of the setup read (R154 to R157, R165, R181): a block that passes the checks brings every block into service, and,
with the ESTOP input asserted and the latch clear, the assertion follows at that instant; a block that fails a check, in
their order, or a read that fails, takes the part back to OFF with the fault code and SETUP; the end of a read that is not
under way has no effect. The model's choice: log entry 11 for the end of a dropped read or of none, and log entry 21 for the clock's
part of a microsecond, 0 at the entry. -/
def Obligations.SetupReadEndsStarting : Prop :=
  ∀ (s : State) (b : Block), s.inReset = false → s.haltsSettled →
    let nothing (c : Instr) := Answers (exec c s) fun t =>
      t = { s with stall := t.stall, irq := t.irq, messages := t.messages }
    nothing (.setupReadDone .dropped b) ∧ nothing (.setupReadFail .dropped)
    ∧ (s.part ≠ .starting ∨ s.setupRead = none → nothing (.setupReadDone .live b) ∧ nothing (.setupReadFail .live))
    ∧ (s.part = .starting → s.setupRead ≠ none →
      let fails (code : FaultCode) (t : State) :=
        t = { s with
          part := .off, setupRead := none, faultCode := code, intCause := s.intCause ||| causeSetup, stall := t.stall,
          irq := t.irq, messages := t.messages }
      let zeros := ∀ i < 64, i = 27 ∨ 46 ≤ i → blockByte b i = 0
      let sizes := 4 ≤ blockField b 24 1 ∧ blockField b 24 1 ≤ 12 ∧ 4 ≤ blockField b 25 1 ∧ blockField b 25 1 ≤ 8
        ∧ 5 ≤ blockField b 26 1 ∧ blockField b 26 1 ≤ 13
      let bases := blockField b 0 8 % 64 = 0 ∧ blockField b 8 8 % 64 = 0 ∧ blockField b 16 8 % 64 = 0
      let values := blockField b 28 4 ≤ 255 ∧ blockField b 32 4 ≤ 65535
        ∧ ∀ i : CapIx, blockField b (36 + 2 * i.val) 2 ≤ 255
      let loaded (t : State) :=
        t.part = .running ∧ t.setupRead = none ∧ t.faultCode = .none
        ∧ t.mainRing = { s.mainRing with
            place := some { base := blockField b 0 8, log2 := blockField b 24 1 }, post := 0, fetch := 0,
            buffer := .empty, suspended := false }
        ∧ t.ctrlRing = { s.ctrlRing with
            place := some { base := blockField b 8 8, log2 := blockField b 25 1 }, post := 0, fetch := 0,
            buffer := .empty, suspended := false }
        ∧ t.cplPlace = some { base := blockField b 16 8, log2 := blockField b 26 1 }
        ∧ t.cplWrite = 0 ∧ t.cplRetire = 0 ∧ t.pass = true
        ∧ t.coalescing = some (blockField b 28 4, blockField b 32 4) ∧ t.unannounced = 0 ∧ t.oldest = none
        ∧ (∀ i : CapIx, t.caps[i] = { s.caps[i] with before := none, qualified := s.caps[i].level }
            ∧ t.capFilter[i] = blockField b (36 + 2 * i.val) 2)
        ∧ t.safePattern = some (blockByte b 45) ∧ t.clock = 0 ∧ t.clockPart = 0
        ∧ t = { s with
            part := t.part, setupRead := t.setupRead, faultCode := t.faultCode, mainRing := t.mainRing,
            ctrlRing := t.ctrlRing, cplPlace := t.cplPlace, cplWrite := t.cplWrite, cplRetire := t.cplRetire,
            pass := t.pass, lost := t.lost, coalescing := t.coalescing, unannounced := t.unannounced,
            oldest := t.oldest, caps := t.caps, capFilter := t.capFilter, aux := t.aux,
            safePattern := t.safePattern, clock := t.clock, clockPart := t.clockPart, estopLatch := t.estopLatch,
            chans := t.chans, slots := t.slots, openList := t.openList, xsyncLow := t.xsyncLow,
            xsyncRun := t.xsyncRun, halts := t.halts, posting := t.posting, stall := t.stall, irq := t.irq,
            messages := t.messages }
      Answers (exec (.setupReadFail .live) s) (fails .setupRead)
      ∧ (¬zeros → Answers (exec (.setupReadDone .live b) s) (fails .setupReserved))
      ∧ (zeros → ¬sizes → Answers (exec (.setupReadDone .live b) s) (fails .ringSize))
      ∧ (zeros → sizes → ¬bases → Answers (exec (.setupReadDone .live b) s) (fails .ringBase))
      ∧ (zeros → sizes → bases → ¬values → Answers (exec (.setupReadDone .live b) s) (fails .setupValue))
      ∧ (zeros → sizes → bases → values → s.estop.qualified = false ∨ s.estopLatch = true →
        Answers (exec (.setupReadDone .live b) s) fun t =>
          loaded t ∧ t.aux = (if s.estopLatch then blockByte b 45 else blockByte b 44) ∧ t.lost = 0
          ∧ t.estopLatch = s.estopLatch ∧ t.chans = s.chans ∧ t.slots = s.slots ∧ t.openList = s.openList
          ∧ t.xsyncLow = s.xsyncLow ∧ t.xsyncRun = s.xsyncRun ∧ t.halts = s.halts ∧ t.posting = s.posting)
      ∧ (zeros → sizes → bases → values → s.estop.qualified = true → s.estopLatch = false → s.queuesShaped →
        (∀ c, (s.chan c).state = .idle ∨ (s.chan c).state = .held ∨ (s.chan c).state = .disabled) → s.openList = [] →
        Answers (exec (.setupReadDone .live b) s) fun t =>
          let enabled := maskOf fun c => (s.chan c).state != .disabled
          let record : Cpl := { s.notice noticeEstop 0 0 0 (auxMask enabled) (auxMask (blockByte b 45)) with timestamp := 0 }
          loaded t ∧ t.aux = blockByte b 45 ∧ t.estopLatch = true
          ∧ (∀ c, t.chan c = if (s.chan c).state = .idle
              then { (s.chan c).emptied .held with dwellStart := none } else s.chan c)
          ∧ (s.notices < 16 → t.posting = s.posting ++ [record] ∧ t.lost = 0)
          ∧ t.slots = s.slots ∧ t.openList = [] ∧ t.xsyncLow = s.xsyncLow ∧ t.xsyncRun = s.xsyncRun
          ∧ t.halts = s.halts))

/-- The end of a drain (R145, R159): with every channel at rest, no credit held and nothing left to write, the part
leaves DRAINING for OFF, and CPL is set for writes not yet announced; until then DRAIN_COMPLETE does nothing. The
model's choice: log entry 15. -/
def Obligations.DrainEndsInOff : Prop :=
  ∀ s : State, s.inReset = false → s.haltsSettled →
    let met := s.part = .draining ∧ (∀ c, (s.chan c).atRest = true ∧ (s.chan c).pgn.pulseEnd = none)
      ∧ s.mainRing.credits = 0 ∧ s.ctrlRing.credits = 0 ∧ s.posting = [] ∧ s.writing = none
    (met → Answers (exec .drainComplete s) fun t =>
      t.part = .off ∧ t.unannounced = 0
      ∧ t.intCause = (if s.unannounced = 0 then s.intCause else s.intCause ||| causeCpl)
      ∧ t = { s with
          part := t.part, intCause := t.intCause, unannounced := t.unannounced, oldest := t.oldest, stall := t.stall,
          irq := t.irq, messages := t.messages })
    ∧ (¬met → Answers (exec .drainComplete s) fun t =>
        t = { s with stall := t.stall, irq := t.irq, messages := t.messages })

/-- The bytes of a completion record (R180), what a read of the register window returns, and the accesses of 64 bits, each two
word accesses with the lower offset first (R182). The model's choice (log entry 29): 0 in the bytes that a read does not enable,
and no access for an upper word past the window. -/
def Obligations.RecordsAndRegistersAreLaidOut : Prop :=
  (∀ (r : Cpl) (pass : Bool),
    let byte (i : Nat) : Byte := (r.bytes pass).getD i 0
    let word (i : Nat) : Nat := littleEndian (((r.bytes pass).drop i).take 4)
    (r.bytes pass).length = 32
    ∧ (byte 0).toNat = (if pass then 1 else 0) + (if r.notice then 2 else 0) ∧ byte 1 = r.kind
    ∧ (byte 2).toNat = r.status.code
    ∧ (byte 3).toNat = (if r.flags.unbound then 1 else 0) + (if r.flags.short then 2 else 0)
        + (if r.flags.overridden then 4 else 0) + (if r.flags.watchHalt then 8 else 0)
    ∧ byte 4 = r.channel ∧ byte 5 = r.lost ∧ byte 6 = 0 ∧ byte 7 = 0 ∧ word 8 = r.tag.toNat
    ∧ word 12 = r.position.toNat ∧ word 16 = r.timestamp.toNat ∧ word 20 = r.auxA.toNat ∧ word 24 = r.auxB.toNat
    ∧ word 28 = 0)
  ∧ (∀ s : State, s.inReset = false →
    let ctrl := s.readRegister 0
    let stat := s.readRegister 4
    ctrl.getLsbD 0 = (s.part == .starting || s.part == .running) ∧ ctrl.getLsbD 1 = false
    ∧ ctrl.getLsbD 2 = s.intEnable
    ∧ (stat.extractLsb' 0 3).toNat = s.part.code ∧ stat.getLsbD 3 = s.estopLatch ∧ stat.getLsbD 4 = s.estop.qualified
    ∧ (stat.extractLsb' 8 3).toNat = s.stall.code ∧ stat.getLsbD 11 = s.indexError
    ∧ (stat.extractLsb' 16 4).toNat = s.faultCode.code
    ∧ s.readRegister 8 = s.setupLo ∧ s.readRegister 12 = s.setupHi
    ∧ s.readRegister 16 = auxNat s.mainRing.post ∧ s.readRegister 20 = auxNat s.mainRing.fetch
    ∧ s.readRegister 24 = auxNat s.ctrlRing.post ∧ s.readRegister 28 = auxNat s.ctrlRing.fetch
    ∧ s.readRegister 32 = auxNat s.cplWrite ∧ s.readRegister 36 = auxNat s.cplRetire
    ∧ s.readRegister 40 = s.intCause.setWidth 32
    ∧ ∀ offset : BitVec 6, 44 ≤ offset.toNat → s.readRegister offset = 0)
  ∧ (∀ (s : State) (offset : BitVec 6) (enables : BitVec 4) (v : Word),
    (windowCommand offset enables v).windowWrite = some (offset, enables, v)
    ∧ exec (windowCommand offset enables v) s = outcome s (writeWindow offset enables v)
    ∧ ∀ i < 4, (s.readWindow offset enables).extractLsb' (8 * i) 8 =
        if enables.getLsbD i then (s.readRegister offset).extractLsb' (8 * i) 8 else 0)
  ∧ ∀ (first second : State) (offset : BitVec 6) (enables : BitVec 8) (v : BitVec 64),
    let low := enables.extractLsb' 0 4
    let high := enables.extractLsb' 4 4
    let pair := readWindow64 first second offset enables
    pair.extractLsb' 0 32 = first.readWindow offset low
    ∧ (offset.toNat < 60 →
        windowCommands64 offset enables v
          = [windowCommand offset low (v.extractLsb' 0 32), windowCommand (offset + 4) high (v.extractLsb' 32 32)]
        ∧ pair.extractLsb' 32 32 = second.readWindow (offset + 4) high)
    ∧ (60 ≤ offset.toNat → windowCommands64 offset enables v = [windowCommand offset low (v.extractLsb' 0 32)]
        ∧ pair.extractLsb' 32 32 = 0)
end

