-- ==== Sys2Proof/Laws/Bits.lean ====
section
/-! SUPPORT. Masks, lists of channels, and the integer root: what the helpers of Machine/Bits.lean compute. -/

namespace Sys2Proof.Machine

theorem mem_allChans (c : Chan) : c ∈ allChans := by revert c; decide
theorem mem_allSlots (i : SlotIx) : i ∈ allSlots := by revert i; decide
theorem mem_allWatches (i : WatchIx) : i ∈ allWatches := by revert i; decide
theorem mem_allCaps (i : CapIx) : i ∈ allCaps := by revert i; decide

/-- Two masks that name the same channels are equal. -/
theorem mask_ext {a b : Mask} (h : ∀ c : Chan, hasChan a c = hasChan b c) : a = b := by
  apply BitVec.eq_of_getLsbD_eq
  intro i hi
  exact h ⟨i, hi⟩

theorem hasChan_or (a b : Mask) (c : Chan) : hasChan (a ||| b) c = (hasChan a c || hasChan b c) := by
  simp [hasChan]

theorem hasChan_chanBit (c d : Chan) : hasChan (chanBit c) d = (d == c) := by
  revert c d; decide

@[simp] theorem hasChan_zero (c : Chan) : hasChan (0#8) c = false := by simp [hasChan]

/-- A mask built from a predicate names the channels for which it holds. -/
@[simp] theorem hasChan_maskOf (p : Chan → Bool) (c : Chan) : hasChan (maskOf p) c = p c := by
  have gen : ∀ (l : List Chan) (m : Mask), hasChan (l.foldl (fun m c => if p c then m ||| chanBit c else m) m) c
      = (hasChan m c || (decide (c ∈ l) && p c)) := by
    intro l
    induction l with
    | nil => intro m; simp
    | cons d ds ih =>
      intro m
      rw [List.foldl_cons, ih]
      by_cases hd : c = d
      · subst hd
        cases hp : p c <;> simp [hasChan_or, hasChan_chanBit]
      · have hne : (c == d) = false := by simpa using hd
        cases hp : p d <;> simp [hasChan_or, hasChan_chanBit, hd, hne]
  have := gen allChans 0
  simpa [maskOf, mem_allChans] using this

/-- A mask is the mask of the channels it names. -/
@[simp] theorem maskOf_hasChan (m : Mask) : maskOf (hasChan m) = m := mask_ext fun c => by simp

theorem maskOf_eq_zero {p : Chan → Bool} : maskOf p = 0 ↔ ∀ c, p c = false := by
  constructor
  · intro h c
    have := hasChan_maskOf p c
    rw [h] at this
    simpa using this.symm
  · intro h
    exact mask_ext fun c => by simp [h c]

@[simp] theorem mem_chansOf (m : Mask) (c : Chan) : c ∈ chansOf m ↔ hasChan m c = true := by
  simp [chansOf, mem_allChans]

theorem nodup_chansOf (m : Mask) : (chansOf m).Nodup := List.Nodup.filter _ (by decide)

/-- The lowest channel of a mask that is not empty is named by it. -/
theorem hasChan_lowestChan {m : Mask} (h : m ≠ 0) : hasChan m (lowestChan m) = true := by
  have : chansOf m ≠ [] := by
    intro he
    apply h
    refine mask_ext fun c => ?_
    have : c ∉ chansOf m := by simp [he]
    simpa using this
  rw [← mem_chansOf]
  unfold lowestChan
  cases hl : chansOf m with
  | nil => exact absurd hl this
  | cons c cs => simp

/-- A vector element after every listed element is changed. -/
theorem updateAll_get {α : Type} {n : Nat} (l : List (Fin n)) (hl : l.Nodup) (f : Fin n → α → α) (i : Fin n) :
    ∀ v : Vector α n, (updateAll l f v)[i] = if i ∈ l then f i v[i] else v[i] := by
  induction l with
  | nil => intro v; simp [updateAll]
  | cons j js ih =>
    intro v
    have hj : j ∉ js := (List.nodup_cons.mp hl).1
    have ih' := ih (List.nodup_cons.mp hl).2 (v.set j (f j v[j]))
    have e : updateAll (j :: js) f v = updateAll js f (v.set j (f j v[j])) := rfl
    rw [e, ih']
    by_cases hij : i = j
    · subst hij; simp [hj]
    · have : j.val ≠ i.val := fun e => hij (Fin.ext e.symm)
      simp [hij, this]

/-! ### The integer root (R30) -/

theorem isqrtBits_spec (n : Nat) : ∀ (k root : Nat), root * root ≤ n → n < (root + 2 ^ k) * (root + 2 ^ k) →
    isqrtBits n k root * isqrtBits n k root ≤ n ∧ n < (isqrtBits n k root + 1) * (isqrtBits n k root + 1) := by
  intro k
  induction k with
  | zero => intro root h1 h2; simpa [isqrtBits] using ⟨h1, h2⟩
  | succ k ih =>
    intro root h1 h2
    unfold isqrtBits
    split
    · rename_i h
      refine ih _ h ?_
      have : root + 2 ^ k + 2 ^ k = root + 2 ^ (k + 1) := by rw [pow_succ]; omega
      rwa [this]
    · rename_i h
      exact ih _ h1 (by omega)

/-- The integer root squared is at most the number, and the next number's square is above it. -/
theorem isqrt_spec (n : Nat) : isqrt n * isqrt n ≤ n ∧ n < (isqrt n + 1) * (isqrt n + 1) := by
  refine isqrtBits_spec n _ 0 (by simp) ?_
  rcases Nat.eq_zero_or_pos n with h | h
  · subst h; simp
  · have h1 : n < 2 ^ (n.log2 + 1) := Nat.lt_log2_self
    have h2 : n.log2 + 1 ≤ (n.log2 / 2 + 1) + (n.log2 / 2 + 1) := by omega
    have h3 : (2 : Nat) ^ (n.log2 + 1) ≤ 2 ^ ((n.log2 / 2 + 1) + (n.log2 / 2 + 1)) := Nat.pow_le_pow_right (by omega) h2
    rw [Nat.zero_add, ← pow_add]
    exact Nat.lt_of_lt_of_le h1 h3

@[simp] theorem isqrt_sq (r : Nat) : isqrt (r ^ 2) = r := by
  have h := isqrt_spec (r ^ 2)
  have h1 : isqrt (r ^ 2) ≤ r := by nlinarith [h.1]
  have h2 : r ≤ isqrt (r ^ 2) := by nlinarith [h.2]
  omega

end Sys2Proof.Machine
end

