-- ==== Sys2Proof/Laws/State.lean ====
section
/-! SUPPORT. One lemma per field per update of State: what an update leaves as it was. -/

namespace Sys2Proof.Machine.State

variable (s : State)

/-! ### setChan -/

@[simp] theorem pending_setChan (c : Chan) (ch : Channel) : (s.setChan c ch).pending = s.pending := rfl
@[simp] theorem now_setChan (c : Chan) (ch : Channel) : (s.setChan c ch).now = s.now := rfl
@[simp] theorem choices_setChan (c : Chan) (ch : Channel) : (s.setChan c ch).choices = s.choices := rfl
@[simp] theorem halts_setChan (c : Chan) (ch : Channel) : (s.setChan c ch).halts = s.halts := rfl
@[simp] theorem profiles_setChan (c : Chan) (ch : Channel) : (s.setChan c ch).profiles = s.profiles := rfl
@[simp] theorem slots_setChan (c : Chan) (ch : Channel) : (s.setChan c ch).slots = s.slots := rfl
@[simp] theorem openList_setChan (c : Chan) (ch : Channel) : (s.setChan c ch).openList = s.openList := rfl
@[simp] theorem xsyncLow_setChan (c : Chan) (ch : Channel) : (s.setChan c ch).xsyncLow = s.xsyncLow := rfl
@[simp] theorem xsyncRun_setChan (c : Chan) (ch : Channel) : (s.setChan c ch).xsyncRun = s.xsyncRun := rfl
@[simp] theorem xsync_setChan (c : Chan) (ch : Channel) : (s.setChan c ch).xsync = s.xsync := rfl
@[simp] theorem watches_setChan (c : Chan) (ch : Channel) : (s.setChan c ch).watches = s.watches := rfl
@[simp] theorem caps_setChan (c : Chan) (ch : Channel) : (s.setChan c ch).caps = s.caps := rfl
@[simp] theorem capFilter_setChan (c : Chan) (ch : Channel) : (s.setChan c ch).capFilter = s.capFilter := rfl
@[simp] theorem aux_setChan (c : Chan) (ch : Channel) : (s.setChan c ch).aux = s.aux := rfl
@[simp] theorem mainRing_setChan (c : Chan) (ch : Channel) : (s.setChan c ch).mainRing = s.mainRing := rfl
@[simp] theorem ctrlRing_setChan (c : Chan) (ch : Channel) : (s.setChan c ch).ctrlRing = s.ctrlRing := rfl
@[simp] theorem stall_setChan (c : Chan) (ch : Channel) : (s.setChan c ch).stall = s.stall := rfl
@[simp] theorem indexError_setChan (c : Chan) (ch : Channel) : (s.setChan c ch).indexError = s.indexError := rfl
@[simp] theorem cplPlace_setChan (c : Chan) (ch : Channel) : (s.setChan c ch).cplPlace = s.cplPlace := rfl
@[simp] theorem cplWrite_setChan (c : Chan) (ch : Channel) : (s.setChan c ch).cplWrite = s.cplWrite := rfl
@[simp] theorem pass_setChan (c : Chan) (ch : Channel) : (s.setChan c ch).pass = s.pass := rfl
@[simp] theorem cplRetire_setChan (c : Chan) (ch : Channel) : (s.setChan c ch).cplRetire = s.cplRetire := rfl
@[simp] theorem posting_setChan (c : Chan) (ch : Channel) : (s.setChan c ch).posting = s.posting := rfl
@[simp] theorem writing_setChan (c : Chan) (ch : Channel) : (s.setChan c ch).writing = s.writing := rfl
@[simp] theorem lost_setChan (c : Chan) (ch : Channel) : (s.setChan c ch).lost = s.lost := rfl
@[simp] theorem coalescing_setChan (c : Chan) (ch : Channel) : (s.setChan c ch).coalescing = s.coalescing := rfl
@[simp] theorem unannounced_setChan (c : Chan) (ch : Channel) : (s.setChan c ch).unannounced = s.unannounced := rfl
@[simp] theorem oldest_setChan (c : Chan) (ch : Channel) : (s.setChan c ch).oldest = s.oldest := rfl
@[simp] theorem intCause_setChan (c : Chan) (ch : Channel) : (s.setChan c ch).intCause = s.intCause := rfl
@[simp] theorem intEnable_setChan (c : Chan) (ch : Channel) : (s.setChan c ch).intEnable = s.intEnable := rfl
@[simp] theorem irq_setChan (c : Chan) (ch : Channel) : (s.setChan c ch).irq = s.irq := rfl
@[simp] theorem msiEnabled_setChan (c : Chan) (ch : Channel) : (s.setChan c ch).msiEnabled = s.msiEnabled := rfl
@[simp] theorem messages_setChan (c : Chan) (ch : Channel) : (s.setChan c ch).messages = s.messages := rfl
@[simp] theorem part_setChan (c : Chan) (ch : Channel) : (s.setChan c ch).part = s.part := rfl
@[simp] theorem setupLo_setChan (c : Chan) (ch : Channel) : (s.setChan c ch).setupLo = s.setupLo := rfl
@[simp] theorem setupHi_setChan (c : Chan) (ch : Channel) : (s.setChan c ch).setupHi = s.setupHi := rfl
@[simp] theorem setupRead_setChan (c : Chan) (ch : Channel) : (s.setChan c ch).setupRead = s.setupRead := rfl
@[simp] theorem faultCode_setChan (c : Chan) (ch : Channel) : (s.setChan c ch).faultCode = s.faultCode := rfl
@[simp] theorem estopLatch_setChan (c : Chan) (ch : Channel) : (s.setChan c ch).estopLatch = s.estopLatch := rfl
@[simp] theorem estop_setChan (c : Chan) (ch : Channel) : (s.setChan c ch).estop = s.estop := rfl
@[simp] theorem rst_setChan (c : Chan) (ch : Channel) : (s.setChan c ch).rst = s.rst := rfl
@[simp] theorem safePattern_setChan (c : Chan) (ch : Channel) : (s.setChan c ch).safePattern = s.safePattern := rfl
@[simp] theorem clock_setChan (c : Chan) (ch : Channel) : (s.setChan c ch).clock = s.clock := rfl
@[simp] theorem clockPart_setChan (c : Chan) (ch : Channel) : (s.setChan c ch).clockPart = s.clockPart := rfl

/-! ### setSlot -/

@[simp] theorem pending_setSlot (i : SlotIx) (x : Option Slot) : (s.setSlot i x).pending = s.pending := rfl
@[simp] theorem now_setSlot (i : SlotIx) (x : Option Slot) : (s.setSlot i x).now = s.now := rfl
@[simp] theorem choices_setSlot (i : SlotIx) (x : Option Slot) : (s.setSlot i x).choices = s.choices := rfl
@[simp] theorem chans_setSlot (i : SlotIx) (x : Option Slot) : (s.setSlot i x).chans = s.chans := rfl
@[simp] theorem halts_setSlot (i : SlotIx) (x : Option Slot) : (s.setSlot i x).halts = s.halts := rfl
@[simp] theorem profiles_setSlot (i : SlotIx) (x : Option Slot) : (s.setSlot i x).profiles = s.profiles := rfl
@[simp] theorem openList_setSlot (i : SlotIx) (x : Option Slot) : (s.setSlot i x).openList = s.openList := rfl
@[simp] theorem xsyncLow_setSlot (i : SlotIx) (x : Option Slot) : (s.setSlot i x).xsyncLow = s.xsyncLow := rfl
@[simp] theorem xsyncRun_setSlot (i : SlotIx) (x : Option Slot) : (s.setSlot i x).xsyncRun = s.xsyncRun := rfl
@[simp] theorem xsync_setSlot (i : SlotIx) (x : Option Slot) : (s.setSlot i x).xsync = s.xsync := rfl
@[simp] theorem watches_setSlot (i : SlotIx) (x : Option Slot) : (s.setSlot i x).watches = s.watches := rfl
@[simp] theorem caps_setSlot (i : SlotIx) (x : Option Slot) : (s.setSlot i x).caps = s.caps := rfl
@[simp] theorem capFilter_setSlot (i : SlotIx) (x : Option Slot) : (s.setSlot i x).capFilter = s.capFilter := rfl
@[simp] theorem aux_setSlot (i : SlotIx) (x : Option Slot) : (s.setSlot i x).aux = s.aux := rfl
@[simp] theorem mainRing_setSlot (i : SlotIx) (x : Option Slot) : (s.setSlot i x).mainRing = s.mainRing := rfl
@[simp] theorem ctrlRing_setSlot (i : SlotIx) (x : Option Slot) : (s.setSlot i x).ctrlRing = s.ctrlRing := rfl
@[simp] theorem stall_setSlot (i : SlotIx) (x : Option Slot) : (s.setSlot i x).stall = s.stall := rfl
@[simp] theorem indexError_setSlot (i : SlotIx) (x : Option Slot) : (s.setSlot i x).indexError = s.indexError := rfl
@[simp] theorem cplPlace_setSlot (i : SlotIx) (x : Option Slot) : (s.setSlot i x).cplPlace = s.cplPlace := rfl
@[simp] theorem cplWrite_setSlot (i : SlotIx) (x : Option Slot) : (s.setSlot i x).cplWrite = s.cplWrite := rfl
@[simp] theorem pass_setSlot (i : SlotIx) (x : Option Slot) : (s.setSlot i x).pass = s.pass := rfl
@[simp] theorem cplRetire_setSlot (i : SlotIx) (x : Option Slot) : (s.setSlot i x).cplRetire = s.cplRetire := rfl
@[simp] theorem posting_setSlot (i : SlotIx) (x : Option Slot) : (s.setSlot i x).posting = s.posting := rfl
@[simp] theorem writing_setSlot (i : SlotIx) (x : Option Slot) : (s.setSlot i x).writing = s.writing := rfl
@[simp] theorem lost_setSlot (i : SlotIx) (x : Option Slot) : (s.setSlot i x).lost = s.lost := rfl
@[simp] theorem coalescing_setSlot (i : SlotIx) (x : Option Slot) : (s.setSlot i x).coalescing = s.coalescing := rfl
@[simp] theorem unannounced_setSlot (i : SlotIx) (x : Option Slot) : (s.setSlot i x).unannounced = s.unannounced := rfl
@[simp] theorem oldest_setSlot (i : SlotIx) (x : Option Slot) : (s.setSlot i x).oldest = s.oldest := rfl
@[simp] theorem intCause_setSlot (i : SlotIx) (x : Option Slot) : (s.setSlot i x).intCause = s.intCause := rfl
@[simp] theorem intEnable_setSlot (i : SlotIx) (x : Option Slot) : (s.setSlot i x).intEnable = s.intEnable := rfl
@[simp] theorem irq_setSlot (i : SlotIx) (x : Option Slot) : (s.setSlot i x).irq = s.irq := rfl
@[simp] theorem msiEnabled_setSlot (i : SlotIx) (x : Option Slot) : (s.setSlot i x).msiEnabled = s.msiEnabled := rfl
@[simp] theorem messages_setSlot (i : SlotIx) (x : Option Slot) : (s.setSlot i x).messages = s.messages := rfl
@[simp] theorem part_setSlot (i : SlotIx) (x : Option Slot) : (s.setSlot i x).part = s.part := rfl
@[simp] theorem setupLo_setSlot (i : SlotIx) (x : Option Slot) : (s.setSlot i x).setupLo = s.setupLo := rfl
@[simp] theorem setupHi_setSlot (i : SlotIx) (x : Option Slot) : (s.setSlot i x).setupHi = s.setupHi := rfl
@[simp] theorem setupRead_setSlot (i : SlotIx) (x : Option Slot) : (s.setSlot i x).setupRead = s.setupRead := rfl
@[simp] theorem faultCode_setSlot (i : SlotIx) (x : Option Slot) : (s.setSlot i x).faultCode = s.faultCode := rfl
@[simp] theorem estopLatch_setSlot (i : SlotIx) (x : Option Slot) : (s.setSlot i x).estopLatch = s.estopLatch := rfl
@[simp] theorem estop_setSlot (i : SlotIx) (x : Option Slot) : (s.setSlot i x).estop = s.estop := rfl
@[simp] theorem rst_setSlot (i : SlotIx) (x : Option Slot) : (s.setSlot i x).rst = s.rst := rfl
@[simp] theorem safePattern_setSlot (i : SlotIx) (x : Option Slot) : (s.setSlot i x).safePattern = s.safePattern := rfl
@[simp] theorem clock_setSlot (i : SlotIx) (x : Option Slot) : (s.setSlot i x).clock = s.clock := rfl
@[simp] theorem clockPart_setSlot (i : SlotIx) (x : Option Slot) : (s.setSlot i x).clockPart = s.clockPart := rfl

/-! ### setWatch -/

@[simp] theorem pending_setWatch (i : WatchIx) (w : Option Watch) : (s.setWatch i w).pending = s.pending := rfl
@[simp] theorem now_setWatch (i : WatchIx) (w : Option Watch) : (s.setWatch i w).now = s.now := rfl
@[simp] theorem choices_setWatch (i : WatchIx) (w : Option Watch) : (s.setWatch i w).choices = s.choices := rfl
@[simp] theorem chans_setWatch (i : WatchIx) (w : Option Watch) : (s.setWatch i w).chans = s.chans := rfl
@[simp] theorem halts_setWatch (i : WatchIx) (w : Option Watch) : (s.setWatch i w).halts = s.halts := rfl
@[simp] theorem profiles_setWatch (i : WatchIx) (w : Option Watch) : (s.setWatch i w).profiles = s.profiles := rfl
@[simp] theorem slots_setWatch (i : WatchIx) (w : Option Watch) : (s.setWatch i w).slots = s.slots := rfl
@[simp] theorem openList_setWatch (i : WatchIx) (w : Option Watch) : (s.setWatch i w).openList = s.openList := rfl
@[simp] theorem xsyncLow_setWatch (i : WatchIx) (w : Option Watch) : (s.setWatch i w).xsyncLow = s.xsyncLow := rfl
@[simp] theorem xsyncRun_setWatch (i : WatchIx) (w : Option Watch) : (s.setWatch i w).xsyncRun = s.xsyncRun := rfl
@[simp] theorem xsync_setWatch (i : WatchIx) (w : Option Watch) : (s.setWatch i w).xsync = s.xsync := rfl
@[simp] theorem caps_setWatch (i : WatchIx) (w : Option Watch) : (s.setWatch i w).caps = s.caps := rfl
@[simp] theorem capFilter_setWatch (i : WatchIx) (w : Option Watch) : (s.setWatch i w).capFilter = s.capFilter := rfl
@[simp] theorem aux_setWatch (i : WatchIx) (w : Option Watch) : (s.setWatch i w).aux = s.aux := rfl
@[simp] theorem mainRing_setWatch (i : WatchIx) (w : Option Watch) : (s.setWatch i w).mainRing = s.mainRing := rfl
@[simp] theorem ctrlRing_setWatch (i : WatchIx) (w : Option Watch) : (s.setWatch i w).ctrlRing = s.ctrlRing := rfl
@[simp] theorem stall_setWatch (i : WatchIx) (w : Option Watch) : (s.setWatch i w).stall = s.stall := rfl
@[simp] theorem indexError_setWatch (i : WatchIx) (w : Option Watch) : (s.setWatch i w).indexError = s.indexError := rfl
@[simp] theorem cplPlace_setWatch (i : WatchIx) (w : Option Watch) : (s.setWatch i w).cplPlace = s.cplPlace := rfl
@[simp] theorem cplWrite_setWatch (i : WatchIx) (w : Option Watch) : (s.setWatch i w).cplWrite = s.cplWrite := rfl
@[simp] theorem pass_setWatch (i : WatchIx) (w : Option Watch) : (s.setWatch i w).pass = s.pass := rfl
@[simp] theorem cplRetire_setWatch (i : WatchIx) (w : Option Watch) : (s.setWatch i w).cplRetire = s.cplRetire := rfl
@[simp] theorem posting_setWatch (i : WatchIx) (w : Option Watch) : (s.setWatch i w).posting = s.posting := rfl
@[simp] theorem writing_setWatch (i : WatchIx) (w : Option Watch) : (s.setWatch i w).writing = s.writing := rfl
@[simp] theorem lost_setWatch (i : WatchIx) (w : Option Watch) : (s.setWatch i w).lost = s.lost := rfl
@[simp] theorem coalescing_setWatch (i : WatchIx) (w : Option Watch) : (s.setWatch i w).coalescing = s.coalescing := rfl
@[simp] theorem unannounced_setWatch (i : WatchIx) (w : Option Watch) : (s.setWatch i w).unannounced = s.unannounced := rfl
@[simp] theorem oldest_setWatch (i : WatchIx) (w : Option Watch) : (s.setWatch i w).oldest = s.oldest := rfl
@[simp] theorem intCause_setWatch (i : WatchIx) (w : Option Watch) : (s.setWatch i w).intCause = s.intCause := rfl
@[simp] theorem intEnable_setWatch (i : WatchIx) (w : Option Watch) : (s.setWatch i w).intEnable = s.intEnable := rfl
@[simp] theorem irq_setWatch (i : WatchIx) (w : Option Watch) : (s.setWatch i w).irq = s.irq := rfl
@[simp] theorem msiEnabled_setWatch (i : WatchIx) (w : Option Watch) : (s.setWatch i w).msiEnabled = s.msiEnabled := rfl
@[simp] theorem messages_setWatch (i : WatchIx) (w : Option Watch) : (s.setWatch i w).messages = s.messages := rfl
@[simp] theorem part_setWatch (i : WatchIx) (w : Option Watch) : (s.setWatch i w).part = s.part := rfl
@[simp] theorem setupLo_setWatch (i : WatchIx) (w : Option Watch) : (s.setWatch i w).setupLo = s.setupLo := rfl
@[simp] theorem setupHi_setWatch (i : WatchIx) (w : Option Watch) : (s.setWatch i w).setupHi = s.setupHi := rfl
@[simp] theorem setupRead_setWatch (i : WatchIx) (w : Option Watch) : (s.setWatch i w).setupRead = s.setupRead := rfl
@[simp] theorem faultCode_setWatch (i : WatchIx) (w : Option Watch) : (s.setWatch i w).faultCode = s.faultCode := rfl
@[simp] theorem estopLatch_setWatch (i : WatchIx) (w : Option Watch) : (s.setWatch i w).estopLatch = s.estopLatch := rfl
@[simp] theorem estop_setWatch (i : WatchIx) (w : Option Watch) : (s.setWatch i w).estop = s.estop := rfl
@[simp] theorem rst_setWatch (i : WatchIx) (w : Option Watch) : (s.setWatch i w).rst = s.rst := rfl
@[simp] theorem safePattern_setWatch (i : WatchIx) (w : Option Watch) : (s.setWatch i w).safePattern = s.safePattern := rfl
@[simp] theorem clock_setWatch (i : WatchIx) (w : Option Watch) : (s.setWatch i w).clock = s.clock := rfl
@[simp] theorem clockPart_setWatch (i : WatchIx) (w : Option Watch) : (s.setWatch i w).clockPart = s.clockPart := rfl

/-! ### setProfile -/

@[simp] theorem pending_setProfile (i : ProfIx) (p : Option Profile) : (s.setProfile i p).pending = s.pending := rfl
@[simp] theorem now_setProfile (i : ProfIx) (p : Option Profile) : (s.setProfile i p).now = s.now := rfl
@[simp] theorem choices_setProfile (i : ProfIx) (p : Option Profile) : (s.setProfile i p).choices = s.choices := rfl
@[simp] theorem chans_setProfile (i : ProfIx) (p : Option Profile) : (s.setProfile i p).chans = s.chans := rfl
@[simp] theorem halts_setProfile (i : ProfIx) (p : Option Profile) : (s.setProfile i p).halts = s.halts := rfl
@[simp] theorem slots_setProfile (i : ProfIx) (p : Option Profile) : (s.setProfile i p).slots = s.slots := rfl
@[simp] theorem openList_setProfile (i : ProfIx) (p : Option Profile) : (s.setProfile i p).openList = s.openList := rfl
@[simp] theorem xsyncLow_setProfile (i : ProfIx) (p : Option Profile) : (s.setProfile i p).xsyncLow = s.xsyncLow := rfl
@[simp] theorem xsyncRun_setProfile (i : ProfIx) (p : Option Profile) : (s.setProfile i p).xsyncRun = s.xsyncRun := rfl
@[simp] theorem xsync_setProfile (i : ProfIx) (p : Option Profile) : (s.setProfile i p).xsync = s.xsync := rfl
@[simp] theorem watches_setProfile (i : ProfIx) (p : Option Profile) : (s.setProfile i p).watches = s.watches := rfl
@[simp] theorem caps_setProfile (i : ProfIx) (p : Option Profile) : (s.setProfile i p).caps = s.caps := rfl
@[simp] theorem capFilter_setProfile (i : ProfIx) (p : Option Profile) : (s.setProfile i p).capFilter = s.capFilter := rfl
@[simp] theorem aux_setProfile (i : ProfIx) (p : Option Profile) : (s.setProfile i p).aux = s.aux := rfl
@[simp] theorem mainRing_setProfile (i : ProfIx) (p : Option Profile) : (s.setProfile i p).mainRing = s.mainRing := rfl
@[simp] theorem ctrlRing_setProfile (i : ProfIx) (p : Option Profile) : (s.setProfile i p).ctrlRing = s.ctrlRing := rfl
@[simp] theorem stall_setProfile (i : ProfIx) (p : Option Profile) : (s.setProfile i p).stall = s.stall := rfl
@[simp] theorem indexError_setProfile (i : ProfIx) (p : Option Profile) : (s.setProfile i p).indexError = s.indexError := rfl
@[simp] theorem cplPlace_setProfile (i : ProfIx) (p : Option Profile) : (s.setProfile i p).cplPlace = s.cplPlace := rfl
@[simp] theorem cplWrite_setProfile (i : ProfIx) (p : Option Profile) : (s.setProfile i p).cplWrite = s.cplWrite := rfl
@[simp] theorem pass_setProfile (i : ProfIx) (p : Option Profile) : (s.setProfile i p).pass = s.pass := rfl
@[simp] theorem cplRetire_setProfile (i : ProfIx) (p : Option Profile) : (s.setProfile i p).cplRetire = s.cplRetire := rfl
@[simp] theorem posting_setProfile (i : ProfIx) (p : Option Profile) : (s.setProfile i p).posting = s.posting := rfl
@[simp] theorem writing_setProfile (i : ProfIx) (p : Option Profile) : (s.setProfile i p).writing = s.writing := rfl
@[simp] theorem lost_setProfile (i : ProfIx) (p : Option Profile) : (s.setProfile i p).lost = s.lost := rfl
@[simp] theorem coalescing_setProfile (i : ProfIx) (p : Option Profile) : (s.setProfile i p).coalescing = s.coalescing := rfl
@[simp] theorem unannounced_setProfile (i : ProfIx) (p : Option Profile) : (s.setProfile i p).unannounced = s.unannounced := rfl
@[simp] theorem oldest_setProfile (i : ProfIx) (p : Option Profile) : (s.setProfile i p).oldest = s.oldest := rfl
@[simp] theorem intCause_setProfile (i : ProfIx) (p : Option Profile) : (s.setProfile i p).intCause = s.intCause := rfl
@[simp] theorem intEnable_setProfile (i : ProfIx) (p : Option Profile) : (s.setProfile i p).intEnable = s.intEnable := rfl
@[simp] theorem irq_setProfile (i : ProfIx) (p : Option Profile) : (s.setProfile i p).irq = s.irq := rfl
@[simp] theorem msiEnabled_setProfile (i : ProfIx) (p : Option Profile) : (s.setProfile i p).msiEnabled = s.msiEnabled := rfl
@[simp] theorem messages_setProfile (i : ProfIx) (p : Option Profile) : (s.setProfile i p).messages = s.messages := rfl
@[simp] theorem part_setProfile (i : ProfIx) (p : Option Profile) : (s.setProfile i p).part = s.part := rfl
@[simp] theorem setupLo_setProfile (i : ProfIx) (p : Option Profile) : (s.setProfile i p).setupLo = s.setupLo := rfl
@[simp] theorem setupHi_setProfile (i : ProfIx) (p : Option Profile) : (s.setProfile i p).setupHi = s.setupHi := rfl
@[simp] theorem setupRead_setProfile (i : ProfIx) (p : Option Profile) : (s.setProfile i p).setupRead = s.setupRead := rfl
@[simp] theorem faultCode_setProfile (i : ProfIx) (p : Option Profile) : (s.setProfile i p).faultCode = s.faultCode := rfl
@[simp] theorem estopLatch_setProfile (i : ProfIx) (p : Option Profile) : (s.setProfile i p).estopLatch = s.estopLatch := rfl
@[simp] theorem estop_setProfile (i : ProfIx) (p : Option Profile) : (s.setProfile i p).estop = s.estop := rfl
@[simp] theorem rst_setProfile (i : ProfIx) (p : Option Profile) : (s.setProfile i p).rst = s.rst := rfl
@[simp] theorem safePattern_setProfile (i : ProfIx) (p : Option Profile) : (s.setProfile i p).safePattern = s.safePattern := rfl
@[simp] theorem clock_setProfile (i : ProfIx) (p : Option Profile) : (s.setProfile i p).clock = s.clock := rfl
@[simp] theorem clockPart_setProfile (i : ProfIx) (p : Option Profile) : (s.setProfile i p).clockPart = s.clockPart := rfl

/-! ### post -/

@[simp] theorem pending_post (r : Cpl) : (s.post r).pending = s.pending := rfl
@[simp] theorem now_post (r : Cpl) : (s.post r).now = s.now := rfl
@[simp] theorem choices_post (r : Cpl) : (s.post r).choices = s.choices := rfl
@[simp] theorem chans_post (r : Cpl) : (s.post r).chans = s.chans := rfl
@[simp] theorem halts_post (r : Cpl) : (s.post r).halts = s.halts := rfl
@[simp] theorem profiles_post (r : Cpl) : (s.post r).profiles = s.profiles := rfl
@[simp] theorem slots_post (r : Cpl) : (s.post r).slots = s.slots := rfl
@[simp] theorem openList_post (r : Cpl) : (s.post r).openList = s.openList := rfl
@[simp] theorem xsyncLow_post (r : Cpl) : (s.post r).xsyncLow = s.xsyncLow := rfl
@[simp] theorem xsyncRun_post (r : Cpl) : (s.post r).xsyncRun = s.xsyncRun := rfl
@[simp] theorem xsync_post (r : Cpl) : (s.post r).xsync = s.xsync := rfl
@[simp] theorem watches_post (r : Cpl) : (s.post r).watches = s.watches := rfl
@[simp] theorem caps_post (r : Cpl) : (s.post r).caps = s.caps := rfl
@[simp] theorem capFilter_post (r : Cpl) : (s.post r).capFilter = s.capFilter := rfl
@[simp] theorem aux_post (r : Cpl) : (s.post r).aux = s.aux := rfl
@[simp] theorem mainRing_post (r : Cpl) : (s.post r).mainRing = s.mainRing := rfl
@[simp] theorem ctrlRing_post (r : Cpl) : (s.post r).ctrlRing = s.ctrlRing := rfl
@[simp] theorem stall_post (r : Cpl) : (s.post r).stall = s.stall := rfl
@[simp] theorem indexError_post (r : Cpl) : (s.post r).indexError = s.indexError := rfl
@[simp] theorem cplPlace_post (r : Cpl) : (s.post r).cplPlace = s.cplPlace := rfl
@[simp] theorem cplWrite_post (r : Cpl) : (s.post r).cplWrite = s.cplWrite := rfl
@[simp] theorem pass_post (r : Cpl) : (s.post r).pass = s.pass := rfl
@[simp] theorem cplRetire_post (r : Cpl) : (s.post r).cplRetire = s.cplRetire := rfl
@[simp] theorem writing_post (r : Cpl) : (s.post r).writing = s.writing := rfl
@[simp] theorem lost_post (r : Cpl) : (s.post r).lost = s.lost := rfl
@[simp] theorem coalescing_post (r : Cpl) : (s.post r).coalescing = s.coalescing := rfl
@[simp] theorem unannounced_post (r : Cpl) : (s.post r).unannounced = s.unannounced := rfl
@[simp] theorem oldest_post (r : Cpl) : (s.post r).oldest = s.oldest := rfl
@[simp] theorem intCause_post (r : Cpl) : (s.post r).intCause = s.intCause := rfl
@[simp] theorem intEnable_post (r : Cpl) : (s.post r).intEnable = s.intEnable := rfl
@[simp] theorem irq_post (r : Cpl) : (s.post r).irq = s.irq := rfl
@[simp] theorem msiEnabled_post (r : Cpl) : (s.post r).msiEnabled = s.msiEnabled := rfl
@[simp] theorem messages_post (r : Cpl) : (s.post r).messages = s.messages := rfl
@[simp] theorem part_post (r : Cpl) : (s.post r).part = s.part := rfl
@[simp] theorem setupLo_post (r : Cpl) : (s.post r).setupLo = s.setupLo := rfl
@[simp] theorem setupHi_post (r : Cpl) : (s.post r).setupHi = s.setupHi := rfl
@[simp] theorem setupRead_post (r : Cpl) : (s.post r).setupRead = s.setupRead := rfl
@[simp] theorem faultCode_post (r : Cpl) : (s.post r).faultCode = s.faultCode := rfl
@[simp] theorem estopLatch_post (r : Cpl) : (s.post r).estopLatch = s.estopLatch := rfl
@[simp] theorem estop_post (r : Cpl) : (s.post r).estop = s.estop := rfl
@[simp] theorem rst_post (r : Cpl) : (s.post r).rst = s.rst := rfl
@[simp] theorem safePattern_post (r : Cpl) : (s.post r).safePattern = s.safePattern := rfl
@[simp] theorem clock_post (r : Cpl) : (s.post r).clock = s.clock := rfl
@[simp] theorem clockPart_post (r : Cpl) : (s.post r).clockPart = s.clockPart := rfl

/-! ### raise -/

@[simp] theorem pending_raise (cause : BitVec 4) : (s.raise cause).pending = s.pending := rfl
@[simp] theorem now_raise (cause : BitVec 4) : (s.raise cause).now = s.now := rfl
@[simp] theorem choices_raise (cause : BitVec 4) : (s.raise cause).choices = s.choices := rfl
@[simp] theorem chans_raise (cause : BitVec 4) : (s.raise cause).chans = s.chans := rfl
@[simp] theorem halts_raise (cause : BitVec 4) : (s.raise cause).halts = s.halts := rfl
@[simp] theorem profiles_raise (cause : BitVec 4) : (s.raise cause).profiles = s.profiles := rfl
@[simp] theorem slots_raise (cause : BitVec 4) : (s.raise cause).slots = s.slots := rfl
@[simp] theorem openList_raise (cause : BitVec 4) : (s.raise cause).openList = s.openList := rfl
@[simp] theorem xsyncLow_raise (cause : BitVec 4) : (s.raise cause).xsyncLow = s.xsyncLow := rfl
@[simp] theorem xsyncRun_raise (cause : BitVec 4) : (s.raise cause).xsyncRun = s.xsyncRun := rfl
@[simp] theorem xsync_raise (cause : BitVec 4) : (s.raise cause).xsync = s.xsync := rfl
@[simp] theorem watches_raise (cause : BitVec 4) : (s.raise cause).watches = s.watches := rfl
@[simp] theorem caps_raise (cause : BitVec 4) : (s.raise cause).caps = s.caps := rfl
@[simp] theorem capFilter_raise (cause : BitVec 4) : (s.raise cause).capFilter = s.capFilter := rfl
@[simp] theorem aux_raise (cause : BitVec 4) : (s.raise cause).aux = s.aux := rfl
@[simp] theorem mainRing_raise (cause : BitVec 4) : (s.raise cause).mainRing = s.mainRing := rfl
@[simp] theorem ctrlRing_raise (cause : BitVec 4) : (s.raise cause).ctrlRing = s.ctrlRing := rfl
@[simp] theorem stall_raise (cause : BitVec 4) : (s.raise cause).stall = s.stall := rfl
@[simp] theorem indexError_raise (cause : BitVec 4) : (s.raise cause).indexError = s.indexError := rfl
@[simp] theorem cplPlace_raise (cause : BitVec 4) : (s.raise cause).cplPlace = s.cplPlace := rfl
@[simp] theorem cplWrite_raise (cause : BitVec 4) : (s.raise cause).cplWrite = s.cplWrite := rfl
@[simp] theorem pass_raise (cause : BitVec 4) : (s.raise cause).pass = s.pass := rfl
@[simp] theorem cplRetire_raise (cause : BitVec 4) : (s.raise cause).cplRetire = s.cplRetire := rfl
@[simp] theorem posting_raise (cause : BitVec 4) : (s.raise cause).posting = s.posting := rfl
@[simp] theorem writing_raise (cause : BitVec 4) : (s.raise cause).writing = s.writing := rfl
@[simp] theorem lost_raise (cause : BitVec 4) : (s.raise cause).lost = s.lost := rfl
@[simp] theorem coalescing_raise (cause : BitVec 4) : (s.raise cause).coalescing = s.coalescing := rfl
@[simp] theorem unannounced_raise (cause : BitVec 4) : (s.raise cause).unannounced = s.unannounced := rfl
@[simp] theorem oldest_raise (cause : BitVec 4) : (s.raise cause).oldest = s.oldest := rfl
@[simp] theorem intEnable_raise (cause : BitVec 4) : (s.raise cause).intEnable = s.intEnable := rfl
@[simp] theorem irq_raise (cause : BitVec 4) : (s.raise cause).irq = s.irq := rfl
@[simp] theorem msiEnabled_raise (cause : BitVec 4) : (s.raise cause).msiEnabled = s.msiEnabled := rfl
@[simp] theorem messages_raise (cause : BitVec 4) : (s.raise cause).messages = s.messages := rfl
@[simp] theorem part_raise (cause : BitVec 4) : (s.raise cause).part = s.part := rfl
@[simp] theorem setupLo_raise (cause : BitVec 4) : (s.raise cause).setupLo = s.setupLo := rfl
@[simp] theorem setupHi_raise (cause : BitVec 4) : (s.raise cause).setupHi = s.setupHi := rfl
@[simp] theorem setupRead_raise (cause : BitVec 4) : (s.raise cause).setupRead = s.setupRead := rfl
@[simp] theorem faultCode_raise (cause : BitVec 4) : (s.raise cause).faultCode = s.faultCode := rfl
@[simp] theorem estopLatch_raise (cause : BitVec 4) : (s.raise cause).estopLatch = s.estopLatch := rfl
@[simp] theorem estop_raise (cause : BitVec 4) : (s.raise cause).estop = s.estop := rfl
@[simp] theorem rst_raise (cause : BitVec 4) : (s.raise cause).rst = s.rst := rfl
@[simp] theorem safePattern_raise (cause : BitVec 4) : (s.raise cause).safePattern = s.safePattern := rfl
@[simp] theorem clock_raise (cause : BitVec 4) : (s.raise cause).clock = s.clock := rfl
@[simp] theorem clockPart_raise (cause : BitVec 4) : (s.raise cause).clockPart = s.clockPart := rfl

/-! ### setRing -/

@[simp] theorem pending_setRing (ring : Ring) (r : RequestRing) : (s.setRing ring r).pending = s.pending := by cases ring <;> rfl
@[simp] theorem now_setRing (ring : Ring) (r : RequestRing) : (s.setRing ring r).now = s.now := by cases ring <;> rfl
@[simp] theorem choices_setRing (ring : Ring) (r : RequestRing) : (s.setRing ring r).choices = s.choices := by cases ring <;> rfl
@[simp] theorem chans_setRing (ring : Ring) (r : RequestRing) : (s.setRing ring r).chans = s.chans := by cases ring <;> rfl
@[simp] theorem halts_setRing (ring : Ring) (r : RequestRing) : (s.setRing ring r).halts = s.halts := by cases ring <;> rfl
@[simp] theorem profiles_setRing (ring : Ring) (r : RequestRing) : (s.setRing ring r).profiles = s.profiles := by cases ring <;> rfl
@[simp] theorem slots_setRing (ring : Ring) (r : RequestRing) : (s.setRing ring r).slots = s.slots := by cases ring <;> rfl
@[simp] theorem openList_setRing (ring : Ring) (r : RequestRing) : (s.setRing ring r).openList = s.openList := by cases ring <;> rfl
@[simp] theorem xsyncLow_setRing (ring : Ring) (r : RequestRing) : (s.setRing ring r).xsyncLow = s.xsyncLow := by cases ring <;> rfl
@[simp] theorem xsyncRun_setRing (ring : Ring) (r : RequestRing) : (s.setRing ring r).xsyncRun = s.xsyncRun := by cases ring <;> rfl
@[simp] theorem xsync_setRing (ring : Ring) (r : RequestRing) : (s.setRing ring r).xsync = s.xsync := by cases ring <;> rfl
@[simp] theorem watches_setRing (ring : Ring) (r : RequestRing) : (s.setRing ring r).watches = s.watches := by cases ring <;> rfl
@[simp] theorem caps_setRing (ring : Ring) (r : RequestRing) : (s.setRing ring r).caps = s.caps := by cases ring <;> rfl
@[simp] theorem capFilter_setRing (ring : Ring) (r : RequestRing) : (s.setRing ring r).capFilter = s.capFilter := by cases ring <;> rfl
@[simp] theorem aux_setRing (ring : Ring) (r : RequestRing) : (s.setRing ring r).aux = s.aux := by cases ring <;> rfl
@[simp] theorem stall_setRing (ring : Ring) (r : RequestRing) : (s.setRing ring r).stall = s.stall := by cases ring <;> rfl
@[simp] theorem indexError_setRing (ring : Ring) (r : RequestRing) : (s.setRing ring r).indexError = s.indexError := by cases ring <;> rfl
@[simp] theorem cplPlace_setRing (ring : Ring) (r : RequestRing) : (s.setRing ring r).cplPlace = s.cplPlace := by cases ring <;> rfl
@[simp] theorem cplWrite_setRing (ring : Ring) (r : RequestRing) : (s.setRing ring r).cplWrite = s.cplWrite := by cases ring <;> rfl
@[simp] theorem pass_setRing (ring : Ring) (r : RequestRing) : (s.setRing ring r).pass = s.pass := by cases ring <;> rfl
@[simp] theorem cplRetire_setRing (ring : Ring) (r : RequestRing) : (s.setRing ring r).cplRetire = s.cplRetire := by cases ring <;> rfl
@[simp] theorem posting_setRing (ring : Ring) (r : RequestRing) : (s.setRing ring r).posting = s.posting := by cases ring <;> rfl
@[simp] theorem writing_setRing (ring : Ring) (r : RequestRing) : (s.setRing ring r).writing = s.writing := by cases ring <;> rfl
@[simp] theorem lost_setRing (ring : Ring) (r : RequestRing) : (s.setRing ring r).lost = s.lost := by cases ring <;> rfl
@[simp] theorem coalescing_setRing (ring : Ring) (r : RequestRing) : (s.setRing ring r).coalescing = s.coalescing := by cases ring <;> rfl
@[simp] theorem unannounced_setRing (ring : Ring) (r : RequestRing) : (s.setRing ring r).unannounced = s.unannounced := by cases ring <;> rfl
@[simp] theorem oldest_setRing (ring : Ring) (r : RequestRing) : (s.setRing ring r).oldest = s.oldest := by cases ring <;> rfl
@[simp] theorem intCause_setRing (ring : Ring) (r : RequestRing) : (s.setRing ring r).intCause = s.intCause := by cases ring <;> rfl
@[simp] theorem intEnable_setRing (ring : Ring) (r : RequestRing) : (s.setRing ring r).intEnable = s.intEnable := by cases ring <;> rfl
@[simp] theorem irq_setRing (ring : Ring) (r : RequestRing) : (s.setRing ring r).irq = s.irq := by cases ring <;> rfl
@[simp] theorem msiEnabled_setRing (ring : Ring) (r : RequestRing) : (s.setRing ring r).msiEnabled = s.msiEnabled := by cases ring <;> rfl
@[simp] theorem messages_setRing (ring : Ring) (r : RequestRing) : (s.setRing ring r).messages = s.messages := by cases ring <;> rfl
@[simp] theorem part_setRing (ring : Ring) (r : RequestRing) : (s.setRing ring r).part = s.part := by cases ring <;> rfl
@[simp] theorem setupLo_setRing (ring : Ring) (r : RequestRing) : (s.setRing ring r).setupLo = s.setupLo := by cases ring <;> rfl
@[simp] theorem setupHi_setRing (ring : Ring) (r : RequestRing) : (s.setRing ring r).setupHi = s.setupHi := by cases ring <;> rfl
@[simp] theorem setupRead_setRing (ring : Ring) (r : RequestRing) : (s.setRing ring r).setupRead = s.setupRead := by cases ring <;> rfl
@[simp] theorem faultCode_setRing (ring : Ring) (r : RequestRing) : (s.setRing ring r).faultCode = s.faultCode := by cases ring <;> rfl
@[simp] theorem estopLatch_setRing (ring : Ring) (r : RequestRing) : (s.setRing ring r).estopLatch = s.estopLatch := by cases ring <;> rfl
@[simp] theorem estop_setRing (ring : Ring) (r : RequestRing) : (s.setRing ring r).estop = s.estop := by cases ring <;> rfl
@[simp] theorem rst_setRing (ring : Ring) (r : RequestRing) : (s.setRing ring r).rst = s.rst := by cases ring <;> rfl
@[simp] theorem safePattern_setRing (ring : Ring) (r : RequestRing) : (s.setRing ring r).safePattern = s.safePattern := by cases ring <;> rfl
@[simp] theorem clock_setRing (ring : Ring) (r : RequestRing) : (s.setRing ring r).clock = s.clock := by cases ring <;> rfl
@[simp] theorem clockPart_setRing (ring : Ring) (r : RequestRing) : (s.setRing ring r).clockPart = s.clockPart := by cases ring <;> rfl

/-! ### showStep -/

@[simp] theorem pending_showStep (c : Chan) (p : Word) : (s.showStep c p).pending = s.pending := rfl
@[simp] theorem now_showStep (c : Chan) (p : Word) : (s.showStep c p).now = s.now := rfl
@[simp] theorem choices_showStep (c : Chan) (p : Word) : (s.showStep c p).choices = s.choices := rfl
@[simp] theorem chans_showStep (c : Chan) (p : Word) : (s.showStep c p).chans = s.chans := rfl
@[simp] theorem halts_showStep (c : Chan) (p : Word) : (s.showStep c p).halts = s.halts := rfl
@[simp] theorem profiles_showStep (c : Chan) (p : Word) : (s.showStep c p).profiles = s.profiles := rfl
@[simp] theorem slots_showStep (c : Chan) (p : Word) : (s.showStep c p).slots = s.slots := rfl
@[simp] theorem openList_showStep (c : Chan) (p : Word) : (s.showStep c p).openList = s.openList := rfl
@[simp] theorem xsyncLow_showStep (c : Chan) (p : Word) : (s.showStep c p).xsyncLow = s.xsyncLow := rfl
@[simp] theorem xsyncRun_showStep (c : Chan) (p : Word) : (s.showStep c p).xsyncRun = s.xsyncRun := rfl
@[simp] theorem xsync_showStep (c : Chan) (p : Word) : (s.showStep c p).xsync = s.xsync := rfl
@[simp] theorem watches_showStep (c : Chan) (p : Word) : (s.showStep c p).watches = s.watches := rfl
@[simp] theorem caps_showStep (c : Chan) (p : Word) : (s.showStep c p).caps = s.caps := rfl
@[simp] theorem capFilter_showStep (c : Chan) (p : Word) : (s.showStep c p).capFilter = s.capFilter := rfl
@[simp] theorem aux_showStep (c : Chan) (p : Word) : (s.showStep c p).aux = s.aux := rfl
@[simp] theorem mainRing_showStep (c : Chan) (p : Word) : (s.showStep c p).mainRing = s.mainRing := rfl
@[simp] theorem ctrlRing_showStep (c : Chan) (p : Word) : (s.showStep c p).ctrlRing = s.ctrlRing := rfl
@[simp] theorem stall_showStep (c : Chan) (p : Word) : (s.showStep c p).stall = s.stall := rfl
@[simp] theorem indexError_showStep (c : Chan) (p : Word) : (s.showStep c p).indexError = s.indexError := rfl
@[simp] theorem cplPlace_showStep (c : Chan) (p : Word) : (s.showStep c p).cplPlace = s.cplPlace := rfl
@[simp] theorem cplWrite_showStep (c : Chan) (p : Word) : (s.showStep c p).cplWrite = s.cplWrite := rfl
@[simp] theorem pass_showStep (c : Chan) (p : Word) : (s.showStep c p).pass = s.pass := rfl
@[simp] theorem cplRetire_showStep (c : Chan) (p : Word) : (s.showStep c p).cplRetire = s.cplRetire := rfl
@[simp] theorem writing_showStep (c : Chan) (p : Word) : (s.showStep c p).writing = s.writing := rfl
@[simp] theorem lost_showStep (c : Chan) (p : Word) : (s.showStep c p).lost = s.lost := rfl
@[simp] theorem coalescing_showStep (c : Chan) (p : Word) : (s.showStep c p).coalescing = s.coalescing := rfl
@[simp] theorem unannounced_showStep (c : Chan) (p : Word) : (s.showStep c p).unannounced = s.unannounced := rfl
@[simp] theorem oldest_showStep (c : Chan) (p : Word) : (s.showStep c p).oldest = s.oldest := rfl
@[simp] theorem intCause_showStep (c : Chan) (p : Word) : (s.showStep c p).intCause = s.intCause := rfl
@[simp] theorem intEnable_showStep (c : Chan) (p : Word) : (s.showStep c p).intEnable = s.intEnable := rfl
@[simp] theorem irq_showStep (c : Chan) (p : Word) : (s.showStep c p).irq = s.irq := rfl
@[simp] theorem msiEnabled_showStep (c : Chan) (p : Word) : (s.showStep c p).msiEnabled = s.msiEnabled := rfl
@[simp] theorem messages_showStep (c : Chan) (p : Word) : (s.showStep c p).messages = s.messages := rfl
@[simp] theorem part_showStep (c : Chan) (p : Word) : (s.showStep c p).part = s.part := rfl
@[simp] theorem setupLo_showStep (c : Chan) (p : Word) : (s.showStep c p).setupLo = s.setupLo := rfl
@[simp] theorem setupHi_showStep (c : Chan) (p : Word) : (s.showStep c p).setupHi = s.setupHi := rfl
@[simp] theorem setupRead_showStep (c : Chan) (p : Word) : (s.showStep c p).setupRead = s.setupRead := rfl
@[simp] theorem faultCode_showStep (c : Chan) (p : Word) : (s.showStep c p).faultCode = s.faultCode := rfl
@[simp] theorem estopLatch_showStep (c : Chan) (p : Word) : (s.showStep c p).estopLatch = s.estopLatch := rfl
@[simp] theorem estop_showStep (c : Chan) (p : Word) : (s.showStep c p).estop = s.estop := rfl
@[simp] theorem rst_showStep (c : Chan) (p : Word) : (s.showStep c p).rst = s.rst := rfl
@[simp] theorem safePattern_showStep (c : Chan) (p : Word) : (s.showStep c p).safePattern = s.safePattern := rfl
@[simp] theorem clock_showStep (c : Chan) (p : Word) : (s.showStep c p).clock = s.clock := rfl
@[simp] theorem clockPart_showStep (c : Chan) (p : Word) : (s.showStep c p).clockPart = s.clockPart := rfl

/-! ### The field an update writes -/

@[simp] theorem posting_post (r : Cpl) : (s.post r).posting = s.posting ++ [r] := rfl
@[simp] theorem posting_showStep (c : Chan) (p : Word) :
    (s.showStep c p).posting = s.posting.map fun r => r.atStep c s.now p := rfl
@[simp] theorem intCause_raise (cause : BitVec 4) : (s.raise cause).intCause = s.intCause ||| cause := rfl
@[simp] theorem mainRing_setRing_main (r : RequestRing) : (s.setRing .main r).mainRing = r := rfl
@[simp] theorem ctrlRing_setRing_main (r : RequestRing) : (s.setRing .main r).ctrlRing = s.ctrlRing := rfl
@[simp] theorem mainRing_setRing_ctrl (r : RequestRing) : (s.setRing .ctrl r).mainRing = s.mainRing := rfl
@[simp] theorem ctrlRing_setRing_ctrl (r : RequestRing) : (s.setRing .ctrl r).ctrlRing = r := rfl
@[simp] theorem ring_setRing (ring : Ring) (r : RequestRing) : (s.setRing ring r).ring ring = r := by cases ring <;> rfl

/-- A channel read after a channel is written. -/
theorem chan_setChan (c d : Chan) (ch : Channel) : (s.setChan c ch).chan d = if d = c then ch else s.chan d := by
  by_cases h : d = c
  · subst h; simp [State.chan, State.setChan]
  · have : c.val ≠ d.val := fun e => h (Fin.ext e.symm)
    simp [State.chan, State.setChan, h, this]

@[simp] theorem chan_setChan_self (c : Chan) (ch : Channel) : (s.setChan c ch).chan c = ch := by
  simp [chan_setChan]

theorem chan_setChan_of_ne {c d : Chan} (h : d ≠ c) (ch : Channel) : (s.setChan c ch).chan d = s.chan d := by
  simp [chan_setChan, h]

@[simp] theorem chan_setSlot (i : SlotIx) (x : Option Slot) (d : Chan) : (s.setSlot i x).chan d = s.chan d := rfl
@[simp] theorem chan_setWatch (i : WatchIx) (w : Option Watch) (d : Chan) : (s.setWatch i w).chan d = s.chan d := rfl
@[simp] theorem chan_setProfile (i : ProfIx) (p : Option Profile) (d : Chan) : (s.setProfile i p).chan d = s.chan d := rfl
@[simp] theorem chan_post (r : Cpl) (d : Chan) : (s.post r).chan d = s.chan d := rfl
@[simp] theorem chan_showStep (c : Chan) (p : Word) (d : Chan) : (s.showStep c p).chan d = s.chan d := rfl
@[simp] theorem chan_raise (cause : BitVec 4) (d : Chan) : (s.raise cause).chan d = s.chan d := rfl
@[simp] theorem chan_setRing (ring : Ring) (r : RequestRing) (d : Chan) : (s.setRing ring r).chan d = s.chan d := by
  cases ring <;> rfl

/-- A slot read after a slot is written. -/
theorem slots_setSlot_get (i j : SlotIx) (x : Option Slot) : (s.setSlot i x).slots[j] = if j = i then x else s.slots[j] := by
  by_cases h : j = i
  · subst h; simp [State.setSlot]
  · have : i.val ≠ j.val := fun e => h (Fin.ext e.symm)
    simp [State.setSlot, h, this]

/-- A watch read after a watch is written. -/
theorem watches_setWatch_get (i j : WatchIx) (w : Option Watch) :
    (s.setWatch i w).watches[j] = if j = i then w else s.watches[j] := by
  by_cases h : j = i
  · subst h; simp [State.setWatch]
  · have : i.val ≠ j.val := fun e => h (Fin.ext e.symm)
    simp [State.setWatch, h, this]

/-- A profile read after a profile is written. -/
theorem profiles_setProfile_get (i j : ProfIx) (p : Option Profile) :
    (s.setProfile i p).profiles[j] = if j = i then p else s.profiles[j] := by
  by_cases h : j = i
  · subst h; simp [State.setProfile]
  · have : i.val ≠ j.val := fun e => h (Fin.ext e.symm)
    simp [State.setProfile, h, this]

end Sys2Proof.Machine.State
end

