-- ==== Sys2Proof/Laws/Motion.lean ====
section
/-! SUPPORT. What every action of the motion side can change: channels (never their configuration or limit qualifiers),
slots and XSYNC, watches, the AUX latch, and the tail of the posting queue with the lost count. One lemma per shared
operation, cited in place of its definition. -/

namespace Sys2Proof.Machine

/-- The state with everything the motion side may change erased. -/
def State.still (s : State) : State :=
  { s with
    chans := State.reset.chans
    slots := State.reset.slots
    openList := []
    xsyncLow := false
    xsyncRun := none
    watches := State.reset.watches
    aux := 0
    posting := []
    lost := 0 }

/-- A record as a leading edge may leave it: its position and aux A alone may differ (R33). -/
def Cpl.Amends (f : Cpl → Cpl) : Prop := ∀ r, f r = { r with position := (f r).position, auxA := (f r).auxA }

theorem Cpl.amends_id : Cpl.Amends id := fun _ => rfl

theorem Cpl.Amends.comp {f g : Cpl → Cpl} (hg : Cpl.Amends g) (hf : Cpl.Amends f) : Cpl.Amends (g ∘ f) := by
  intro r
  refine (hg (f r)).trans ?_
  show _ = { r with position := (g (f r)).position, auxA := (g (f r)).auxA }
  generalize (g (f r)).position = p
  generalize (g (f r)).auxA = a
  rw [hf r]

theorem Cpl.amends_atStep (c : Chan) (now : Nat) (position : Word) : Cpl.Amends fun r => r.atStep c now position := by
  intro r
  simp only [Cpl.atStep]
  split <;> rfl

/-- What an action of the motion side keeps. The posting queue grows at its tail, and leading edges amend the records it
holds. -/
structure MotionFrame (s t : State) : Prop where
  still : t.still = s.still
  cfg : ∀ c, (t.chan c).cfg = (s.chan c).cfg
  limp : ∀ c, (t.chan c).limp = (s.chan c).limp
  limn : ∀ c, (t.chan c).limn = (s.chan c).limn
  posting : ∃ f more, Cpl.Amends f ∧ t.posting = s.posting.map f ++ more
  notices : s.noticesBounded → t.noticesBounded

namespace MotionFrame

variable {s t u : State}

protected theorem refl (s : State) : MotionFrame s s :=
  ⟨rfl, fun _ => rfl, fun _ => rfl, fun _ => rfl, ⟨id, [], Cpl.amends_id, by simp⟩, id⟩

protected theorem trans (h : MotionFrame s t) (k : MotionFrame t u) : MotionFrame s u where
  still := k.still.trans h.still
  cfg c := (k.cfg c).trans (h.cfg c)
  limp c := (k.limp c).trans (h.limp c)
  limn c := (k.limn c).trans (h.limn c)
  posting := by
    obtain ⟨f, a, hf, ha⟩ := h.posting
    obtain ⟨g, b, hg, hb⟩ := k.posting
    exact ⟨g ∘ f, a.map g ++ b, hg.comp hf, by rw [hb, ha]; simp⟩
  notices := k.notices ∘ h.notices

/-- An update that touches neither the channels, nor the posting queue, nor the lost count. -/
theorem of_eq (h : t.still = s.still) (hc : t.chans = s.chans) (hp : t.posting = s.posting) (hl : t.lost = s.lost) :
    MotionFrame s t := by
  refine ⟨h, fun c => ?_, fun c => ?_, fun c => ?_, ⟨id, [], Cpl.amends_id, by simp [hp]⟩, fun hn => ?_⟩
  · simp [State.chan, hc]
  · simp [State.chan, hc]
  · simp [State.chan, hc]
  · simpa [State.noticesBounded, State.notices, hp, hl] using hn

/-- A channel written with its configuration and limit qualifiers kept. -/
theorem setChan (s : State) (c : Chan) (ch : Channel) (h1 : ch.cfg = (s.chan c).cfg) (h2 : ch.limp = (s.chan c).limp)
    (h3 : ch.limn = (s.chan c).limn) : MotionFrame s (s.setChan c ch) := by
  refine ⟨rfl, fun d => ?_, fun d => ?_, fun d => ?_, ⟨id, [], Cpl.amends_id, by simp⟩, id⟩ <;> rw [State.chan_setChan] <;> split <;>
    simp_all

/-- A DONE record handed over. -/
theorem post (s : State) (r : Cpl) (h : r.notice = false) : MotionFrame s (s.post r) := by
  refine ⟨rfl, fun d => rfl, fun d => rfl, fun d => rfl, ⟨id, [r], Cpl.amends_id, by simp⟩, fun hn => ?_⟩
  simpa [State.noticesBounded, State.notices, h] using hn

/-- A notice handed over, or dropped. -/
theorem postNotice (s : State) (r : Cpl) (h : r.notice = true) : MotionFrame s (s.postNotice r) := by
  unfold State.postNotice
  split
  · refine ⟨rfl, fun d => rfl, fun d => rfl, fun d => rfl, ⟨id, [], Cpl.amends_id, by simp⟩, fun hn => ?_⟩
    exact ⟨hn.1, by simp⟩
  · rename_i hlt
    refine ⟨rfl, fun d => rfl, fun d => rfl, fun d => rfl, ⟨id, [_], Cpl.amends_id, by simp; rfl⟩, fun hn => ⟨?_, by simp⟩⟩
    simp only [State.notices] at hlt ⊢
    simp only [List.countP_append, List.countP_cons, List.countP_nil, h]
    simp only [if_true]
    omega

/-- A step counted in the records made at its instant. -/
theorem showStep (s : State) (c : Chan) (position : Word) : MotionFrame s (s.showStep c position) := by
  refine ⟨rfl, fun d => rfl, fun d => rfl, fun d => rfl,
    ⟨_, [], Cpl.amends_atStep c s.now position, by simp [State.showStep]⟩, fun hn => ?_⟩
  have h : ∀ r : Cpl, (r.atStep c s.now position).notice = r.notice := fun r => by unfold Cpl.atStep; split <;> rfl
  simpa [State.noticesBounded, State.notices, State.showStep, List.countP_map, Function.comp_def, h] using hn

end MotionFrame

/-! ### Actions -/

theorem eachAct_frame {α : Type} (l : List α) (f : α → State → Act) (h : ∀ x s, MotionFrame s (f x s).1) (s : State) :
    MotionFrame s (eachAct l f s).1 := by
  have gen : ∀ (l : List α) (a : Act), MotionFrame a.1 (l.foldl (fun a x => a.andThen (f x)) a).1 := by
    intro l
    induction l with
    | nil => exact fun a => .refl _
    | cons x xs ih => exact fun a => (h x a.1).trans (ih (a.andThen (f x)))
  exact gen l (s, [])

theorem flushEntry_frame (c : Chan) (e : Entry) (s : State) : MotionFrame s (flushEntry c e s).1 := by
  cases e <;> first | exact .post _ _ rfl | exact .refl _

theorem flushBehind_frame (c : Chan) (l : List Entry) (s : State) : MotionFrame s (flushBehind c l s).1 :=
  eachAct_frame _ _ (flushEntry_frame c) s

theorem postKept_frame (c : Chan) (k : Kept) (s : State) : MotionFrame s (postKept c k s) := .post _ _ rfl

theorem enterHeld_frame (c : Chan) (b : Bool) (s : State) : MotionFrame s (enterHeld c b s).1 := by
  unfold enterHeld
  simp only
  split
  · exact .setChan _ _ _ rfl rfl rfl
  · split
    · split
      · refine .trans ?_ (flushBehind_frame _ _ _)
        exact .setChan _ _ _ rfl rfl rfl
      · refine .trans ?_ (postKept_frame _ _ _)
        refine .trans ?_ (flushBehind_frame _ _ _)
        exact .setChan _ _ _ rfl rfl rfl
    · refine .trans ?_ (.post _ _ rfl)
      refine .trans ?_ (flushBehind_frame _ _ _)
      exact .setChan _ _ _ rfl rfl rfl
    all_goals
      refine .trans ?_ (flushBehind_frame _ _ _)
      exact .setChan _ _ _ rfl rfl rfl

theorem stopAtRest_frame (c : Chan) (s : State) : MotionFrame s (stopAtRest c s) := by
  unfold stopAtRest
  simp only
  split
  · refine .trans ?_ (postKept_frame _ _ _)
    exact .setChan _ _ _ rfl rfl rfl
  · exact .setChan _ _ _ rfl rfl rfl

theorem enterStopping_frame (c : Chan) (s : State) : MotionFrame s (enterStopping c s).1 := by
  unfold enterStopping
  simp only
  split
  · exact .refl _
  · split
    · refine .trans ?_ (stopAtRest_frame _ _)
      refine .trans ?_ (flushBehind_frame _ _ _)
      exact .setChan _ _ _ rfl rfl rfl
    · refine .trans ?_ (flushBehind_frame _ _ _)
      exact .setChan _ _ _ rfl rfl rfl

theorem markWatchHalt_frame (c : Chan) (b : Bool) (s : State) : MotionFrame s (markWatchHalt c b s) := by
  unfold markWatchHalt
  split
  · exact .setChan _ _ _ rfl rfl rfl
  · exact .refl _

theorem haltOrder_frame (c : Chan) (mode : StopMode) (b : Bool) (s : State) : MotionFrame s (haltOrder c mode b s).1 := by
  unfold haltOrder
  split
  · exact .refl _
  · exact .refl _
  · exact enterHeld_frame _ _ _
  · exact (markWatchHalt_frame _ _ _).trans (enterHeld_frame _ _ _)
  · exact (markWatchHalt_frame _ _ _).trans (enterHeld_frame _ _ _)
  · split
    · exact (markWatchHalt_frame _ _ _).trans (enterHeld_frame _ _ _)
    · exact (markWatchHalt_frame _ _ _).trans (enterStopping_frame _ _)
  · split
    · exact (markWatchHalt_frame _ _ _).trans (enterHeld_frame _ _ _)
    · exact markWatchHalt_frame _ _ _

theorem haltMask_frame (m : Mask) (mode : StopMode) (b : Bool) (s : State) : MotionFrame s (haltMask m mode b s).1 :=
  eachAct_frame _ _ (fun c => haltOrder_frame c mode b) s

theorem setWatch_frame (i : WatchIx) (w : Option Watch) (s : State) : MotionFrame s (s.setWatch i w) :=
  .of_eq rfl rfl rfl rfl

theorem rearmOne_frame (c : Chan) (p : Word) (s : State) (i : WatchIx) : MotionFrame s (rearmOne c p s i) := by
  unfold rearmOne
  split
  · split
    · exact setWatch_frame _ _ _
    · exact .refl _
  · exact .refl _

theorem rearmCooling_frame (c : Chan) (p : Word) (s : State) : MotionFrame s (rearmCooling c p s) := by
  have gen : ∀ (l : List WatchIx) (s : State), MotionFrame s (l.foldl (rearmOne c p) s) := by
    intro l
    induction l with
    | nil => exact fun s => .refl _
    | cons i is ih => exact fun s => (rearmOne_frame c p s i).trans (ih _)
  unfold rearmCooling
  split
  · exact gen _ _
  · exact .refl _

theorem runSetPosition_frame (c : Chan) (tag v : Word) (s : State) : MotionFrame s (runSetPosition c tag v s) := by
  unfold runSetPosition
  simp only
  refine .trans ?_ (.post _ _ rfl)
  refine .trans ?_ (rearmCooling_frame _ _ _)
  exact .setChan _ _ _ rfl rfl rfl

theorem runMark_frame (c : Chan) (tag : Word) (a b : Mask) (s : State) : MotionFrame s (runMark c tag a b s) := by
  unfold runMark
  simp only
  refine .trans ?_ (.post _ _ rfl)
  exact .of_eq rfl rfl rfl rfl

theorem runZeroMove_frame (c : Chan) (m : MoveEntry) (s : State) : MotionFrame s (runZeroMove c m s) := .post _ _ rfl

theorem failStart_frame (c : Chan) (m : MoveEntry) (st : Status) (l : List Entry) (s : State) :
    MotionFrame s (failStart c m st l s).1 := by
  unfold failStart
  simp only
  refine .trans ?_ (.post _ _ rfl)
  refine .trans ?_ (flushBehind_frame _ _ _)
  exact .setChan _ _ _ rfl rfl rfl

/-- A change of a channel that keeps its configuration and limit qualifiers. -/
def ConfigKept (a b : Channel) : Prop := b.cfg = a.cfg ∧ b.limp = a.limp ∧ b.limn = a.limn

theorem boundaryZero_config (ch : Channel) (u : Nat) : ConfigKept ch (boundaryZero ch u) := by
  unfold boundaryZero
  split <;> exact ⟨rfl, rfl, rfl⟩

theorem boundaryRate_config (ch : Channel) (m : MoveEntry) (now : Nat) : ConfigKept ch (boundaryRate ch m now) := by
  unfold boundaryRate
  simp only
  split
  · exact ⟨rfl, rfl, rfl⟩
  · split <;> exact ⟨rfl, rfl, rfl⟩

theorem boundaryStop_config (ch : Channel) (m : MoveEntry) (now : Nat) : ConfigKept ch (boundaryStop ch m now) := by
  unfold boundaryStop
  simp only
  split <;> exact ⟨rfl, rfl, rfl⟩

theorem afterStep_config (ch : Channel) (now : Nat) : ConfigKept ch (afterStep ch now) := by
  unfold afterStep
  split
  · exact ⟨rfl, rfl, rfl⟩
  · split
    · exact ⟨rfl, rfl, rfl⟩
    · split
      · exact boundaryStop_config _ _ _
      · exact boundaryRate_config _ _ _

theorem emitStep_frame (c : Chan) (r : Nat) (s : State) : MotionFrame s (emitStep c r s).1 := by
  have h := afterStep_config (stepEdge (s.chan c) s.now r) s.now
  exact .trans (.setChan _ _ _ h.1 h.2.1 h.2.2) (.showStep _ _ _)

theorem firstStep_frame (c : Chan) (r : Nat) (s : State) : MotionFrame s (firstStep c r s).1 := by
  have h := boundaryZero_config (s.chan c) r
  unfold firstStep
  simp only
  split
  · exact .setChan _ _ _ h.1 h.2.1 h.2.2
  · refine .trans ?_ (emitStep_frame _ _ _)
    exact .setChan _ _ _ h.1 h.2.1 h.2.2

theorem startMove_frame (c : Chan) (m : MoveEntry) (r : Resolved) (l : List Entry) (s : State) :
    MotionFrame s (startMove c m r l s).1 := by
  unfold startMove
  split
  · exact failStart_frame _ _ _ _ _
  · split
    · exact failStart_frame _ _ _ _ _
    · unfold beginMove
      simp only
      split
      · refine .trans ?_ (firstStep_frame _ _ _)
        exact .setChan _ _ _ rfl rfl rfl
      · exact .setChan _ _ _ rfl rfl rfl

theorem runHead_frame (c : Chan) (l : List Entry) : ∀ s : State, MotionFrame s (runHead c l s).1 := by
  induction l with
  | nil => exact fun s => .setChan _ _ _ rfl rfl rfl
  | cons e rest ih =>
    intro s
    cases e with
    | move m =>
      unfold runHead
      simp only
      split
      · exact .trans (runZeroMove_frame c m s) (ih _)
      · exact startMove_frame _ _ _ _ _
    | dwell tag d => exact .setChan _ _ _ rfl rfl rfl
    | setPosition tag v => exact .trans (runSetPosition_frame c tag v s) (ih _)
    | mark tag a b => exact .trans (runMark_frame c tag a b s) (ih _)
    | marker i => exact .setChan _ _ _ rfl rfl rfl

theorem appendEntry_frame (c : Chan) (e : Entry) (s : State) : MotionFrame s (appendEntry c e s).1 := by
  unfold appendEntry
  simp only
  split
  · exact runHead_frame _ _ _
  · exact .setChan _ _ _ rfl rfl rfl

theorem runMarks_frame (c : Chan) (l : List Entry) : ∀ s : State, MotionFrame s (runMarks c l s) := by
  induction l with
  | nil => exact fun s => .refl _
  | cons e rest ih =>
    intro s
    cases e with
    | mark tag a b => exact .trans (runMark_frame c tag a b s) (ih _)
    | move m => exact ih s
    | dwell tag d => exact ih s
    | setPosition tag v => exact ih s
    | marker i => exact ih s

theorem takeUpSuccessor_frame (c : Chan) (m : MoveEntry) (r : Resolved) (l : List Entry) (s : State) :
    MotionFrame s (takeUpSuccessor c m r l s).1 := by
  unfold takeUpSuccessor
  simp only
  refine .trans ?_ (firstStep_frame _ _ _)
  exact .setChan _ _ _ rfl rfl rfl

theorem endSegment_frame (c : Chan) (m : MoveEntry) (s : State) : MotionFrame s (endSegment c m s).1 := by
  have h1 : MotionFrame s (postSegment c m s) := .post _ _ rfl
  unfold endSegment
  simp only
  split
  · refine .trans ?_ (takeUpSuccessor_frame _ _ _ _ _)
    exact h1.trans (runMarks_frame _ _ _)
  · refine .trans ?_ (runHead_frame _ _ _)
    refine h1.trans ?_
    exact .setChan _ _ _ rfl rfl rfl

theorem freeSlot_frame (i : SlotIx) (sl : Slot) (s : State) : MotionFrame s (freeSlot i sl s) := .of_eq rfl rfl rfl rfl

theorem failSlot_frame (i : SlotIx) (st : Status) (w : Option Chan) (s : State) : MotionFrame s (failSlot i st w s).1 := by
  unfold failSlot
  split
  · exact .refl _
  · refine .trans ?_ (eachAct_frame _ _ (fun c => haltOrder_frame c _ _) _)
    refine .trans ?_ (.post _ _ rfl)
    exact freeSlot_frame _ _ _

theorem releaseSlot_frame (i : SlotIx) (s : State) : MotionFrame s (releaseSlot i s).1 := by
  unfold releaseSlot
  split
  · exact .refl _
  · refine .trans ?_ (.post _ _ rfl)
    exact (freeSlot_frame _ _ _).trans (eachAct_frame _ _ (fun c s => runHead_frame c _ s) _)

theorem takeArrival_frame (c : Chan) (i : SlotIx) (s : State) : MotionFrame s (takeArrival c i s).1 := by
  unfold takeArrival
  split
  · exact .refl _
  · split
    · simp only
      split
      · split
        · exact .of_eq rfl rfl rfl rfl
        · refine .trans ?_ (releaseSlot_frame _ _)
          exact .of_eq rfl rfl rfl rfl
      · exact .of_eq rfl rfl rfl rfl
    · exact .refl _

theorem takeWithdrawal_frame (c : Chan) (i : SlotIx) (s : State) : MotionFrame s (takeWithdrawal c i s).1 := by
  unfold takeWithdrawal
  split
  · exact .refl _
  · split
    · exact failSlot_frame _ _ _ _
    · exact .refl _

theorem failAllSlots_frame (st : Status) (s : State) : MotionFrame s (failAllSlots st s).1 :=
  eachAct_frame _ _ (fun i => failSlot_frame i st none) s

theorem watchAux_frame (w : Watch) (s : State) : MotionFrame s (watchAux w s) := by
  unfold watchAux
  split
  · exact .refl _
  · exact .of_eq rfl rfl rfl rfl

theorem armWatch_frame (x : Option WatchIx) (s : State) : MotionFrame s (armWatch x s) := by
  unfold armWatch
  split
  · exact .refl _
  · split
    · split
      · exact setWatch_frame _ _ _
      · exact .refl _
    · exact .refl _

theorem fireWatch_frame (up : Bool) (i : WatchIx) (s : State) : MotionFrame s (fireWatch up i s).1 := by
  unfold fireWatch
  split
  · exact .refl _
  · rename_i w _
    have h1 (w' : Watch) : MotionFrame s (watchAux w' (s.setWatch i (some w'))) :=
      (setWatch_frame _ _ _).trans (watchAux_frame _ _)
    have h2 (a b : Mask) (t : State) :
        MotionFrame t ((haltMask a .decel true t).andThen (haltMask b .abrupt true)).1 :=
      (haltMask_frame _ _ _ _).trans (haltMask_frame _ _ _ _)
    simp only
    refine MotionFrame.trans ?_ (armWatch_frame _ _)
    refine MotionFrame.trans ?_ (h2 _ _ _)
    split
    · exact (h1 _).trans (.postNotice _ _ rfl)
    · exact h1 _

theorem takeStep_frame (c : Chan) (p : Word) (up : Bool) (s : State) : MotionFrame s (takeStep c p up s).1 := by
  unfold takeStep
  split
  · exact (rearmCooling_frame _ _ _).trans (eachAct_frame _ _ (fireWatch_frame up) _)
  · exact .refl _

theorem takeEdge_frame (i : CapIx) (rise : Bool) (s : State) : MotionFrame s (takeEdge i rise s).1 := by
  unfold takeEdge
  split
  · exact eachAct_frame _ _ (fireWatch_frame rise) _
  · exact .refl _

theorem takeSignal_frame (sig : Signal) (s : State) : MotionFrame s (takeSignal sig s).1 := by
  cases sig with
  | arrive c i => exact takeArrival_frame _ _ _
  | withdraw c i => exact takeWithdrawal_frame _ _ _
  | stepped c p up => exact takeStep_frame _ _ _ _

theorem settleRounds_frame (n : Nat) : ∀ (sigs : List Signal) (s : State), MotionFrame s (settleRounds n sigs s) := by
  induction n with
  | zero => exact fun _ s => .refl s
  | succ n ih =>
    intro sigs s
    cases sigs with
    | nil => exact .refl s
    | cons sig rest => exact (eachAct_frame _ _ takeSignal_frame s).trans (ih _ _)

theorem settle_frame (a : Act) : MotionFrame a.1 a.settle := settleRounds_frame 20 a.2 a.1

/-- An action and everything it sends. -/
theorem settle_frame_of {s : State} {a : Act} (h : MotionFrame s a.1) : MotionFrame s a.settle := h.trans (settle_frame a)

end Sys2Proof.Machine
end

