-- ==== Sys2Proof/Laws/Intake.lean ====
section
/-! SUPPORT. What follows every command, and what a take does before its owner acts. -/

namespace Sys2Proof.Machine

/-- A channel still coming to rest is not at rest in HELD or DISABLED (R51, R60). -/
theorem restedHalted_of_comingToRest {ch : Channel} (h : ch.comingToRest = true) : restedHalted ch = false := by
  cases hs : ch.state <;> simp_all [Channel.comingToRest, restedHalted, Channel.atRest]

@[simp] theorem hasChan_stillMoving (t : State) (m : Mask) (c : Chan) :
    hasChan (stillMoving t m) c = (hasChan m c && !restedHalted (t.chan c)) := by
  simp [stillMoving]

/-- Only the channels of the state count. -/
theorem stillMoving_congr {t u : State} (h : ∀ c, t.chan c = u.chan c) (m : Mask) : stillMoving t m = stillMoving u m := by
  simp only [stillMoving, h]

/-- Channels that are still coming to rest all stay in the mask (R60). -/
theorem stillMoving_eq {t : State} {m : Mask} (h : ∀ c, hasChan m c = true → (t.chan c).comingToRest = true) :
    stillMoving t m = m := by
  refine mask_ext fun c => ?_
  rw [hasChan_stillMoving]
  cases hc : hasChan m c with
  | false => rfl
  | true => simp [restedHalted_of_comingToRest (h c hc)]

/-- A pending HALT none of whose channels has come to rest stays as it is (R60). -/
theorem sweepHalt_settled (s : State) (h : PendingHalt)
    (hw : h.waiting ≠ 0 ∧ ∀ c : Chan, hasChan h.waiting c = true → (s.chan c).comingToRest = true) :
    sweepHalt s h = { s with halts := s.halts ++ [h] } := by
  unfold sweepHalt
  simp only [stillMoving_eq hw.2]
  rw [if_neg hw.1]

/-- Settled pending HALTs stay as they are at the end of a command (R60). -/
theorem sweepHalts_settled (s : State) (hs : s.haltsSettled) : sweepHalts s = s := by
  have gen : ∀ (l : List PendingHalt) (t : State), t.chans = s.chans → (∀ h ∈ l, h ∈ s.halts) →
      l.foldl sweepHalt t = { t with halts := t.halts ++ l } := by
    intro l
    induction l with
    | nil => intro t _ _; simp
    | cons h hs' ih =>
      intro t ht hl
      have hw := hs h (hl h (by simp))
      have ht' : ∀ c, t.chan c = s.chan c := fun c => by simp [State.chan, ht]
      rw [List.foldl_cons, sweepHalt_settled t h ⟨hw.1, fun c hc => by rw [ht']; exact hw.2 c hc⟩,
        ih { t with halts := t.halts ++ [h] } ht (fun x hx => hl x (by simp [hx]))]
      simp
  have := gen s.halts { s with halts := [] } rfl (fun _ h => h)
  simpa [sweepHalts] using this

/-- The end of a command judges the stalled record again and lets the interrupt request follow, and changes nothing else
once the pending HALTs are settled (R60, R128, R147). -/
theorem finish_settled (s : State) (hs : s.haltsSettled) :
    finish s = { s with stall := (rejudge s).stall, irq := (finish s).irq, messages := (finish s).messages } := by
  have h : ∀ u : State, rejudge u = { u with stall := (rejudge u).stall } := by
    intro u
    unfold rejudge
    split
    · rfl
    · split
      · rfl
      · split <;> rfl
  unfold finish
  rw [sweepHalts_settled s hs]
  have := h s
  generalize rejudge s = u at *
  rw [this]
  rfl

/-- The request that a taken record makes is the kind it names (R120). -/
theorem takeKind_taken {s : State} {ring : Ring} {k : ReqKind} {r : Block} (h : Taken s ring k r)
    (accept : Block → Nat → State → State) :
    takeKind (some k) ring accept s = accept r (s.ring ring).fetch (consume ring s) := by
  simp [takeKind, h.takes, h.kind, h.passes]

/-- A take that is not made leaves the state as it is (R127). -/
theorem takeKind_none {s : State} {ring : Ring} (h : takeable s ring = none) (k : Option ReqKind)
    (accept : Block → Nat → State → State) : takeKind k ring accept s = s := by
  simp [takeKind, h]

/-- The kind code of a record of a known kind is that kind's code (R183). -/
theorem recKind_of_recReq {r : Block} {k : ReqKind} (h : recReq? r = some k) : recKind r = k.code := by
  have key : ∀ b : BitVec 8, reqKind? b.toNat = some k → b = k.code := by
    cases k <;> decide
  exact key _ h

/-- What a command outside the pin reset answers. -/
theorem outcome_awake {s : State} (h : s.inReset = false) (f : State → State) : outcome s f = .next (finish (f s)) := by
  simp [outcome, h]

/-- A take outside the pin reset charges a credit, passes the slot and empties the buffer (R123). -/
theorem consume_tookFrom (s : State) (ring : Ring) : TookFrom s (consume ring s) ring := by
  cases ring
  · refine ⟨rfl, fun other ho => ?_⟩
    cases other
    · exact absurd rfl ho
    · rfl
  · refine ⟨rfl, fun other ho => ?_⟩
    cases other
    · rfl
    · exact absurd rfl ho

/-- A take changes the two rings' intake state alone. -/
theorem consume_frame (s : State) (ring : Ring) :
    consume ring s = { s with mainRing := (consume ring s).mainRing, ctrlRing := (consume ring s).ctrlRing } := by
  cases ring <;> rfl

@[simp] theorem chan_consume (s : State) (ring : Ring) (c : Chan) : (consume ring s).chan c = s.chan c := by
  cases ring <;> rfl

/-- Pending HALTs stay settled while no channel they wait for comes to rest. -/
theorem haltsSettled_of {s t : State} (h : s.haltsSettled) (hh : t.halts = s.halts)
    (hc : ∀ c, (s.chan c).comingToRest = true → (t.chan c).comingToRest = true) : t.haltsSettled := by
  intro x hx
  rw [hh] at hx
  exact ⟨(h x hx).1, fun c hcw => hc c ((h x hx).2 c hcw)⟩

theorem haltsSettled_consume {s : State} (h : s.haltsSettled) (ring : Ring) : (consume ring s).haltsSettled :=
  haltsSettled_of h (by cases ring <;> rfl) fun c hc => by rwa [chan_consume]

/-- A ring without a credit has no record taken from it (R123). -/
theorem takeable_of_noCredit {s : State} {ring : Ring} (h : creditFor s ring = false) : takeable s ring = none := by
  cases ring with
  | main =>
    unfold takeable
    simp only
    split
    · split
      · simp [mainStall, h]
      · rfl
    · rfl
  | ctrl => simp [takeable, ctrlTakeable, h]

/-- What a take answers, when its owner leaves the pending HALTs settled: the owner's state, but for the stall cause and
the interrupt request (R123). -/
theorem answers_take {s : State} {ring : Ring} {k : ReqKind} {r : Block} (h : Taken s ring k r)
    (accept : Block → Nat → State → State) (p : State → Prop)
    (hs : (accept r (s.ring ring).fetch (consume ring s)).haltsSettled)
    (hp : ∀ stall irq messages,
      p { accept r (s.ring ring).fetch (consume ring s) with stall := stall, irq := irq, messages := messages }) :
    Answers (outcome s (takeKind (some k) ring accept)) p := by
  refine ⟨_, outcome_awake h.awake _, ?_⟩
  rw [takeKind_taken h, finish_settled _ hs]
  exact hp _ _ _

/-- What a command other than a take answers, when it leaves the pending HALTs settled. -/
theorem answers_settled {s : State} (h : s.inReset = false) (f : State → State) (p : State → Prop)
    (hs : (f s).haltsSettled) (hp : ∀ stall irq messages, p { f s with stall := stall, irq := irq, messages := messages }) :
    Answers (outcome s f) p := by
  refine ⟨_, outcome_awake h _, ?_⟩
  rw [finish_settled _ hs]
  exact hp _ _ _

end Sys2Proof.Machine
end

