-- ==== Sys2Proof/Laws/Halting.lean ====
section
/-! SUPPORT. What a flush, a halt order, a step's watches and the pending-halt list do, each in one equation, and that a halt
order acts on its own channel alone. -/

namespace Sys2Proof.Machine

/-! ### Actions in sequence -/

@[simp] theorem eachAct_nil {α : Type} (f : α → State → Act) (s : State) : eachAct [] f s = (s, []) := rfl

/-- An action for the first element, then one for each of the rest; the signals in that order. -/
theorem eachAct_cons {α : Type} (x : α) (l : List α) (f : α → State → Act) (s : State) :
    eachAct (x :: l) f s = ((eachAct l f (f x s).1).1, (f x s).2 ++ (eachAct l f (f x s).1).2) := by
  have gen : ∀ (l : List α) (a : Act), l.foldl (fun (a : Act) x => a.andThen (f x)) a =
      ((l.foldl (fun (a : Act) x => a.andThen (f x)) (a.1, [])).1,
        a.2 ++ (l.foldl (fun (a : Act) x => a.andThen (f x)) (a.1, [])).2) := by
    intro l
    induction l with
    | nil => intro a; simp
    | cons y ys ih =>
      intro a
      rw [List.foldl_cons, List.foldl_cons, ih (a.andThen (f y)), ih (Act.andThen (a.1, []) (f y))]
      simp [Act.andThen]
  rw [eachAct, List.foldl_cons, gen]
  simp [eachAct, Act.andThen]

theorem eachAct_singleton {α : Type} (x : α) (f : α → State → Act) (s : State) : eachAct [x] f s = f x s := by
  simp [eachAct_cons]

/-- An action that sends no signal is settled as it is. -/
@[simp] theorem settle_quiet (s : State) : Act.settle (s, []) = s := rfl

/-- A step handed to the watch unit is taken in the first round (R33). -/
theorem settle_stepped (s : State) (c : Chan) (position : Word) (positive : Bool) :
    Act.settle (s, [.stepped c position positive])
      = settleRounds 19 (takeStep c position positive s).2 (takeStep c position positive s).1 := by
  show settleRounds 19 _ _ = _
  rw [eachAct_singleton]
  rfl

/-! ### A flush -/

/-- What an entry removed by a flush completes with depends on the channel, the latch and the clock alone. -/
theorem cancelled_congr {s t : State} {c : Chan} (hc : t.chan c = s.chan c) (hn : t.now = s.now)
    (hk : t.clock = s.clock) (ha : t.aux = s.aux) (e : Entry) : cancelled? t c e = cancelled? s c e := by
  cases e <;>
    simp [cancelled?, Cpl.showing, State.entryDone, State.done, State.position, hc, hn, hk, ha]

/-- A flush completes its entries in order, sends their withdrawals in order, and changes nothing else (R10, R11, R55). -/
theorem flushBehind_eq (c : Chan) (l : List Entry) (s : State) :
    flushBehind c l s
      = ({ s with posting := s.posting ++ l.filterMap (cancelled? s c) }, l.filterMap (withdrawn? c)) := by
  induction l generalizing s with
  | nil => simp [flushBehind]
  | cons e rest ih =>
    have ih' := ih (flushEntry c e s).1
    unfold flushBehind at ih' ⊢
    rw [eachAct_cons, ih']
    cases h : cancelled? s c e with
    | none => cases hw : withdrawn? c e <;> simp [flushEntry, h, hw]
    | some r =>
      have hr : ∀ x, cancelled? (s.post r) c x = cancelled? s c x := cancelled_congr rfl rfl rfl rfl
      cases hw : withdrawn? c e <;> simp [flushEntry, h, hw, funext hr]

/-! ### A halt order acts on its channel alone -/

/-- What an action on channel c changes: that channel, to a value fixed by the channel and the instant, and the tail of the
posting queue. -/
structure OnChannel (c : Chan) (s t : State) (after : Channel) : Prop where
  chan : t.chan c = after
  others : ∀ d, d ≠ c → t.chan d = s.chan d
  frame : t = { s with chans := t.chans, posting := t.posting }
  posting : ∃ more, t.posting = s.posting ++ more

namespace OnChannel

variable {c : Chan} {s t u : State} {x y : Channel}

theorem refl (c : Chan) (s : State) : OnChannel c s s (s.chan c) := ⟨rfl, fun _ _ => rfl, rfl, [], by simp⟩

theorem setChan (c : Chan) (s : State) (x : Channel) : OnChannel c s (s.setChan c x) x :=
  ⟨by simp, fun d hd => by rw [State.chan_setChan, if_neg hd], rfl, [], by simp⟩

theorem post (c : Chan) (s : State) (l : List Cpl) : OnChannel c s { s with posting := s.posting ++ l } (s.chan c) :=
  ⟨rfl, fun _ _ => rfl, rfl, l, rfl⟩

theorem trans (h : OnChannel c s t x) (k : OnChannel c t u y) : OnChannel c s u y where
  chan := k.chan
  others d hd := (k.others d hd).trans (h.others d hd)
  frame := by rw [k.frame, h.frame]
  posting := by
    obtain ⟨a, ha⟩ := h.posting
    obtain ⟨b, hb⟩ := k.posting
    exact ⟨a ++ b, by rw [hb, ha, List.append_assoc]⟩

end OnChannel

/-- A channel held at once, but for what its head's completion keeps back (R45, R56). -/
def Channel.afterHeld (ch : Channel) (byLimit : Bool) : Channel :=
  let emptied : Channel :=
    { ch with
      state := .held, queue := [], resolved := none, binding := .notChained, watchHalt := false, dwellStart := none }
  match ch.queue with
  | .move m :: _ =>
    { emptied with
      pgn := ch.pgn.abruptStop, kept := if ch.pgn.pulseEnd.isSome then some (haltedMove ch m byLimit) else none }
  | _ => emptied

/-- A channel that comes to rest under the stopping law (R44). -/
def Channel.afterRest (ch : Channel) : Channel :=
  { ch with
    state := .held, queue := [], resolved := none, binding := .notChained, watchHalt := false, pgn := ch.pgn.atRest }

/-- A RUNNING channel after a DECEL order (R43, R55). -/
def Channel.afterStopping (ch : Channel) : Channel :=
  match ch.headMove? with
  | none => ch
  | some m =>
    let stopping : Channel :=
      { ch with
        state := .stopping, queue := ch.queue.take 1, binding := ch.binding.onHalt
        pgn := ch.pgn.startStopping m.profile }
    if ch.pgn.emitted = 0 then stopping.afterRest else stopping

/-- A channel after a halt order (R53): it depends on the channel alone. -/
def Channel.afterOrder (ch : Channel) (mode : StopMode) (byWatch : Bool) : Channel :=
  let marked := if byWatch then { ch with watchHalt := true } else ch
  match ch.state with
  | .disabled | .held => ch
  | .idle => ch.afterHeld false
  | .dwelling | .waiting => marked.afterHeld false
  | .running => if mode = .abrupt then marked.afterHeld false else marked.afterStopping
  | .stopping => if mode = .abrupt then marked.afterHeld false else marked

theorem flushBehind_on (c : Chan) (l : List Entry) (s : State) : OnChannel c s (flushBehind c l s).1 (s.chan c) := by
  rw [flushBehind_eq]
  exact .post _ _ _

theorem postOne_on (c : Chan) (s : State) (r : Cpl) : OnChannel c s (s.post r) (s.chan c) := .post c s [r]

theorem enterHeld_on (c : Chan) (b : Bool) (s : State) :
    OnChannel c s (enterHeld c b s).1 ((s.chan c).afterHeld b) := by
  have hf (l : List Entry) (x : Channel) : OnChannel c s (flushBehind c l (s.setChan c x)).1 x := by
    have h := (OnChannel.setChan c s x).trans (flushBehind_on c l _)
    rwa [State.chan_setChan_self] at h
  have hp {u : State} {x : Channel} (r : Cpl) (h : OnChannel c s u x) : OnChannel c s (u.post r) x := by
    have k := h.trans (postOne_on c u r)
    rwa [h.chan] at k
  unfold enterHeld Channel.afterHeld
  cases hq : (s.chan c).queue with
  | nil => simpa only [hq] using .setChan _ _ _
  | cons e rest =>
    cases e with
    | move m =>
      simp only [hq]
      split
      · exact hf _ _
      · exact hp _ (hf _ _)
    | dwell tag d => simpa only [hq] using hp _ (hf _ _)
    | setPosition tag v => simpa only [hq] using hf _ _
    | mark tag x y => simpa only [hq] using hf _ _
    | marker i => simpa only [hq] using hf _ _

theorem stopAtRest_on (c : Chan) (s : State) : OnChannel c s (stopAtRest c s) (s.chan c).afterRest := by
  have h := OnChannel.setChan c s (s.chan c).afterRest
  unfold stopAtRest
  simp only
  split
  · have k (r : Cpl) := h.trans (postOne_on c _ r)
    simp only [State.chan_setChan_self] at k
    exact k _
  · exact h

theorem enterStopping_on (c : Chan) (s : State) : OnChannel c s (enterStopping c s).1 (s.chan c).afterStopping := by
  unfold enterStopping Channel.afterStopping
  cases hm : (s.chan c).headMove? with
  | none => simpa only [hm] using .refl c s
  | some m =>
    have hf (l : List Entry) (x : Channel) : OnChannel c s (flushBehind c l (s.setChan c x)).1 x := by
      have h := (OnChannel.setChan c s x).trans (flushBehind_on c l _)
      rwa [State.chan_setChan_self] at h
    simp only [hm]
    split
    · have h (x : Channel) := (hf (s.chan c).queue.tail x).trans (stopAtRest_on c _)
      simp only [(hf _ _).chan] at h
      exact h _
    · exact hf _ _

/-- A halt order changes its channel, to a value fixed by that channel alone, and hands over records; nothing else (R53). -/
theorem haltOrder_on (c : Chan) (mode : StopMode) (byWatch : Bool) (s : State) :
    OnChannel c s (haltOrder c mode byWatch s).1 ((s.chan c).afterOrder mode byWatch) := by
  have hm : OnChannel c s (markWatchHalt c byWatch s)
      (if byWatch then { s.chan c with watchHalt := true } else s.chan c) := by
    cases byWatch
    · exact .refl c s
    · exact .setChan _ _ _
  have hh (b : Bool) := hm.trans (enterHeld_on c b _)
  have hs := hm.trans (enterStopping_on c _)
  rw [hm.chan] at hs
  simp only [hm.chan] at hh
  unfold haltOrder Channel.afterOrder
  have hn : OnChannel c s s (s.chan c) := .refl c s
  have hi := enterHeld_on c false s
  cases hst : (s.chan c).state <;> simp only [hst] at hh hs hm
  · exact hn
  · exact hi
  · simp only
    split
    · exact hh false
    · exact hs
  · exact hh false
  · exact hh false
  · simp only
    split
    · exact hh false
    · exact hm
  · exact hn

/-- Halt orders to several channels, once each: every one of them is as its own order leaves it (R53). -/
theorem haltOrders_chan (l : List Chan) (hl : l.Nodup) (mode : StopMode) (byWatch : Bool) (s : State) (d : Chan) :
    (eachAct l (fun c => haltOrder c mode byWatch) s).1.chan d =
      if d ∈ l then (s.chan d).afterOrder mode byWatch else s.chan d := by
  induction l generalizing s with
  | nil => simp
  | cons c rest ih =>
    obtain ⟨hc, hr⟩ := List.nodup_cons.mp hl
    have h := haltOrder_on c mode byWatch s
    rw [eachAct_cons, ih hr]
    by_cases hd : d = c
    · subst hd
      simp [hc, h.chan]
    · simp [hd, h.others d hd]

/-! ### A step's watches -/

/-- A watch tested against a new position of channel c (R101). -/
def Watch.rearmed (c : Chan) (position : Word) (w : Watch) : Watch :=
  if rearms w c position then { w with state := .armed } else w

theorem rearmOne_eq (c : Chan) (position : Word) (s : State) (i : WatchIx) :
    rearmOne c position s i
      = { s with watches := s.watches.set i ((s.watches[i]).map (Watch.rearmed c position)) } := by
  have hself (x : Option Watch) (h : s.watches[i] = x) : s.watches.set i x = s.watches := by
    subst h
    ext j hj
    simp
  unfold rearmOne
  cases hw : s.watches[i] with
  | none => simp [hself none hw]
  | some w =>
    by_cases hr : rearms w c position = true
    · simp [hr, Watch.rearmed, State.setWatch]
    · have := hself (some w) hw
      simp [hr, Watch.rearmed, this]

/-- A new position arms the COOLING watches that stand far enough from their P, and changes nothing else (R98, R101, R102). -/
theorem rearmCooling_rearmed (c : Chan) (position : Word) (s : State) :
    Rearmed s (rearmCooling c position s) c position
      ∧ rearmCooling c position s = { s with watches := (rearmCooling c position s).watches } := by
  have fold : ∀ (l : List WatchIx) (s : State), l.foldl (rearmOne c position) s
      = { s with watches := updateAll l (fun _ => Option.map (Watch.rearmed c position)) s.watches } := by
    intro l
    induction l with
    | nil => intro s; rfl
    | cons i is ih => intro s; rw [List.foldl_cons, ih, rearmOne_eq]; rfl
  unfold Rearmed rearmCooling
  split
  · rw [fold]
    exact ⟨fun i => by rw [updateAll_get _ (by decide)]; simp [mem_allWatches]; rfl, rfl⟩
  · exact ⟨fun i => rfl, rfl⟩

/-- A step on which no watch fires only tests the COOLING watches (R99, R101). -/
theorem takeStep_none {s : State} {c : Chan} {position : Word} {positive : Bool} (h : NoneFires s c position positive) :
    takeStep c position positive s = (rearmCooling c position s, []) := by
  have hw : (watchesWhere s fun w => firesOnStep w c position positive) = [] := by
    refine List.filter_eq_nil_iff.mpr fun i _ => ?_
    cases hi : s.watches[i] with
    | none => simp
    | some w => simp [h i w hi]
  unfold takeStep
  rw [hw]
  unfold rearmCooling
  split <;> rfl

/-! ### The pending HALTs against the channels of a later state -/

/-- Where every channel waited for is still coming to rest, no HALT completes and the list stays as it is (R60). -/
theorem halts_unchanged {s t : State} (hs : s.haltsSettled)
    (h : ∀ c, (s.chan c).comingToRest = true → (t.chan c).comingToRest = true) :
    haltsLeft s t = s.halts ∧ haltsDone s t = [] := by
  have hw : ∀ x ∈ s.halts, stillMoving t x.waiting = x.waiting ∧ x.waiting ≠ 0 := fun x hx =>
    ⟨stillMoving_eq fun c hc => h c ((hs x hx).2 c hc), (hs x hx).1⟩
  constructor
  · unfold haltsLeft
    rw [List.filter_eq_self.mpr fun x hx => by rw [(hw x hx).1]; exact bne_iff_ne.mpr (hw x hx).2]
    exact (List.map_congr_left fun x hx => by rw [(hw x hx).1]; rfl).trans (List.map_id _)
  · unfold haltsDone
    rw [List.filter_eq_nil_iff.mpr fun x hx => by rw [(hw x hx).1]; exact fun e => (hw x hx).2 (eq_of_beq e), List.map_nil]

end Sys2Proof.Machine
end

