-- ==== Sys2Proof/Laws/PerInstr.lean ====
section
/-! SUPPORT. Per command: which register-window writes the commands are. -/

namespace Sys2Proof.Laws.WindowWrites

/-- A well-formed command that is a write of the register window writes at an aligned offset of its 64 bytes (R182). -/
def Statement (i : Instr) : Prop :=
  i.wf = true → ∀ (offset : BitVec 6) (enables : BitVec 4) (value : Word),
    i.windowWrite = some (offset, enables, value) → offset.toNat % 4 = 0 ∧ offset.toNat < 64

/-- A command that is no window write. -/
theorem of_none {i : Instr} (h : i.windowWrite = none) : Statement i := by
  intro _ offset enables value hw
  rw [h] at hw
  cases hw

/-- A command that writes one register's word. -/
theorem of_some {i : Instr} {offset : BitVec 6} {value : Word} (h : i.windowWrite = some (offset, 15, value))
    (ho : offset.toNat % 4 = 0) : Statement i := by
  intro _ offset' enables value' hw
  rw [h] at hw
  cases hw
  exact ⟨ho, offset.isLt⟩

theorem move (ring : Ring) : Statement (.move ring) := of_none rfl
theorem dwell (ring : Ring) : Statement (.dwell ring) := of_none rfl
theorem setPosition (ring : Ring) : Statement (.setPosition ring) := of_none rfl
theorem mark (ring : Ring) : Statement (.mark ring) := of_none rfl
theorem rendezvous (ring : Ring) : Statement (.rendezvous ring) := of_none rfl
theorem setProfile (ring : Ring) : Statement (.setProfile ring) := of_none rfl
theorem fence (ring : Ring) : Statement (.fence ring) := of_none rfl
theorem nop (ring : Ring) : Statement (.nop ring) := of_none rfl
theorem halt (ring : Ring) : Statement (.halt ring) := of_none rfl
theorem resume (ring : Ring) : Statement (.resume ring) := of_none rfl
theorem overrideRate (ring : Ring) : Statement (.overrideRate ring) := of_none rfl
theorem cancelRendezvous (ring : Ring) : Statement (.cancelRendezvous ring) := of_none rfl
theorem setWatch (ring : Ring) : Statement (.setWatch ring) := of_none rfl
theorem clearWatch (ring : Ring) : Statement (.clearWatch ring) := of_none rfl
theorem setChannel (ring : Ring) : Statement (.setChannel ring) := of_none rfl
theorem query (ring : Ring) : Statement (.query ring) := of_none rfl
theorem clearEstop (ring : Ring) : Statement (.clearEstop ring) := of_none rfl
theorem badKindRecord (ring : Ring) : Statement (.badKindRecord ring) := of_none rfl
theorem enableSet (value : Word) : Statement (.enableSet value) := of_some rfl rfl
theorem enableClear (value : Word) : Statement (.enableClear value) := of_some rfl rfl
theorem softReset (value : Word) : Statement (.softReset value) := of_some rfl rfl
theorem intEnable (value : Word) : Statement (.intEnable value) := of_some rfl rfl
theorem setupLo (value : Word) : Statement (.setupLo value) := of_some rfl rfl
theorem setupHi (value : Word) : Statement (.setupHi value) := of_some rfl rfl
theorem mainPost (value : Word) : Statement (.mainPost value) := of_some rfl rfl
theorem ctrlPost (value : Word) : Statement (.ctrlPost value) := of_some rfl rfl
theorem cplRetire (value : Word) : Statement (.cplRetire value) := of_some rfl rfl
theorem intCauseClear (value : Word) : Statement (.intCauseClear value) := of_some rfl rfl
theorem indexErrorClear (value : Word) : Statement (.indexErrorClear value) := of_some rfl rfl
theorem ignoredRegisterWrite (offset : BitVec 6) (byteEnables : BitVec 4) (value : Word) :
    Statement (.ignoredRegisterWrite offset byteEnables value) := by
  intro hwf offset' enables' value' hw
  simp only [Instr.windowWrite, Option.some.injEq, Prod.mk.injEq] at hw
  obtain ⟨rfl, _, _⟩ := hw
  simp only [Instr.wf, Bool.and_eq_true, decide_eq_true_eq] at hwf
  exact ⟨hwf.1, offset.isLt⟩
theorem pinResetAssert : Statement .pinResetAssert := of_none rfl
theorem pinResetRelease : Statement .pinResetRelease := of_none rfl
theorem conventionalReset : Statement .conventionalReset := of_none rfl
theorem functionLevelReset : Statement .functionLevelReset := of_none rfl
theorem estopAssertion : Statement .estopAssertion := of_none rfl
theorem estopNegation : Statement .estopNegation := of_none rfl
theorem limitQualifiedChange (channel : Chan) (input : LimitInput) (active : Bool) :
    Statement (.limitQualifiedChange channel input active) := of_none rfl
theorem qualifiedEdge (input : CapIx) (rise : Bool) : Statement (.qualifiedEdge input rise) := of_none rfl
theorem xsyncQualified : Statement .xsyncQualified := of_none rfl
theorem stepEmission (channel : Chan) : Statement (.stepEmission channel) := of_none rfl
theorem settleEnd (channel : Chan) : Statement (.settleEnd channel) := of_none rfl
theorem pulseEnd (channel : Chan) : Statement (.pulseEnd channel) := of_none rfl
theorem segmentEnd (channel : Chan) : Statement (.segmentEnd channel) := of_none rfl
theorem stopRest (channel : Chan) : Statement (.stopRest channel) := of_none rfl
theorem dwellExpiry (channel : Chan) : Statement (.dwellExpiry channel) := of_none rfl
theorem rendezvousExpiry (slot : SlotIx) : Statement (.rendezvousExpiry slot) := of_none rfl
theorem coalescingDelayExpiry : Statement .coalescingDelayExpiry := of_none rfl
theorem fetchDone (ring : Ring) (read : DmaEnd) (data : Block) : Statement (.fetchDone ring read data) := of_none rfl
theorem fetchFault (ring : Ring) (read : DmaEnd) : Statement (.fetchFault ring read) := of_none rfl
theorem completionWriteDone (write : DmaEnd) : Statement (.completionWriteDone write) := of_none rfl
theorem completionWriteFault (write : DmaEnd) : Statement (.completionWriteFault write) := of_none rfl
theorem setupReadDone (read : DmaEnd) (block : Block) : Statement (.setupReadDone read block) := of_none rfl
theorem setupReadFail (read : DmaEnd) : Statement (.setupReadFail read) := of_none rfl
theorem fetchBegin (ring : Ring) : Statement (.fetchBegin ring) := of_none rfl
theorem completionWriteBegin : Statement .completionWriteBegin := of_none rfl
theorem drainComplete : Statement .drainComplete := of_none rfl

end Sys2Proof.Laws.WindowWrites
end

