-- ==== Sys2Proof/Laws/Qualifiers.lean ====
section
/-! SUPPORT. What one sample does to each input qualifier and to the whole part, what a qualifier that takes a change keeps, and
when a timed event acts. -/

namespace Sys2Proof.Machine

/-! ### One qualifier -/

/-- A sample never changes the qualified state. -/
@[simp] theorem qualified_sample (q : Qual) (target level : Bool) (now : Nat) :
    (q.sample target level now).qualified = q.qualified := by unfold Qual.sample; split <;> rfl

/-- After a sample the qualifier holds the level sampled. -/
@[simp] theorem level_sample (q : Qual) (target level : Bool) (now : Nat) :
    (q.sample target level now).level = level := by
  unfold Qual.sample
  split
  · assumption
  · rfl

/-- A sample of the level already held changes nothing. -/
theorem sample_same {q : Qual} {level : Bool} (h : q.level = level) (target : Bool) (now : Nat) :
    q.sample target level now = q := if_pos h

@[simp] theorem level_change (q : Qual) : q.change.level = q.level := rfl
@[simp] theorem since_change (q : Qual) : q.change.since = q.since := rfl
@[simp] theorem before_change (q : Qual) : q.change.before = none := rfl
@[simp] theorem qualified_change (q : Qual) : q.change.qualified = !q.qualified := rfl
@[simp] theorem level_take (q : Qual) (b : Bool) : (q.take b).level = q.level := rfl
@[simp] theorem since_take (q : Qual) (b : Bool) : (q.take b).since = q.since := rfl
@[simp] theorem before_take (q : Qual) (b : Bool) : (q.take b).before = none := rfl
@[simp] theorem qualified_take (q : Qual) (b : Bool) : (q.take b).qualified = b := rfl

/-! ### The limit inputs of a channel -/

@[simp] theorem limit_setLimit (ch : Channel) (input : LimitInput) (q : Qual) : (ch.setLimit input q).limit input = q := by
  cases input <;> rfl

/-- Writing one limit qualifier leaves the other. -/
theorem limit_setLimit_ne (ch : Channel) {input other : LimitInput} (h : other ≠ input) (q : Qual) :
    (ch.setLimit input q).limit other = ch.limit other := by
  cases input <;> cases other <;> first | rfl | exact absurd rfl h

/-- Writing a limit qualifier leaves the rest of the channel. -/
theorem setLimit_frame (ch : Channel) (input : LimitInput) (q : Qual) :
    ch.setLimit input q = { ch with limp := (ch.setLimit input q).limp, limn := (ch.setLimit input q).limn } := by
  cases input <;> rfl

/-- Taking the limit changes of an instant leaves the rest of the channel. -/
theorem takeLimits_frame (ch : Channel) (now : Nat) :
    ch.takeLimits now = { ch with limp := (ch.takeLimits now).limp, limn := (ch.takeLimits now).limn } := by
  unfold Channel.takeLimits Channel.takeLimit
  split <;> split <;> rfl

/-! ### One reference cycle of the whole part -/

/-- A cycle samples both limit inputs of every channel and leaves the rest of the channel. -/
@[simp] theorem chan_tickWith (p : Inputs) (s : State) (c : Chan) :
    (tickWith p s).chan c = (s.chan c).sampleLimits p s.nextCycle.now c := by
  have h : s.nextCycle.chans = s.chans := by unfold State.nextCycle; split <;> [rfl; split <;> rfl]
  have nodup : allChans.Nodup := by decide
  simp only [tickWith, State.chan, updateAll_get _ nodup, if_pos (mem_allChans c), h]

/-- A cycle samples every capture input. -/
@[simp] theorem caps_tickWith (p : Inputs) (s : State) (i : CapIx) :
    (tickWith p s).caps[i]
      = (s.caps[i]).sample (s.caps[i]).level (pinLevel Config.pullUp p.cap[i]) s.nextCycle.now := by
  have h : s.nextCycle.caps = s.caps := by unfold State.nextCycle; split <;> [rfl; split <;> rfl]
  have nodup : allCaps.Nodup := by decide
  simp only [tickWith, updateAll_get _ nodup, if_pos (mem_allCaps i), h]

/-! ### Timed events -/

/-- A timed event acts once its instant has come. -/
theorem atDue_reached {due : Option Nat} {s : State} (h : reached s.now due = true) (f : State → State) :
    atDue due f s = f s := if_pos h

/-- Before its instant, and where none is set, a timed event has no effect. -/
theorem atDue_early {due : Option Nat} {s : State} (h : reached s.now due = false) (f : State → State) :
    atDue due f s = s := if_neg (by simp [h])

@[simp] theorem reached_none (now : Nat) : reached now none = false := rfl
@[simp] theorem reached_some (now due : Nat) : reached now (some due) = decide (due ≤ now) := rfl

end Sys2Proof.Machine
end

