-- ==== Sys2Proof/Tests/Slice0.lean ====
section
/-! SUPPORT. Small tests: ill-formed commands that the check refuses, one step of each command on a small state, figures that
the spec works out, and, for each statement with hypotheses, a state and operands that meet all of them. -/

namespace Sys2Proof.Machine

/-! ### Well-formedness: each check refuses an ill-formed command -/

theorem test_wf_enableSet : (Instr.enableSet 1).wf = true ∧ (Instr.enableSet 4).wf = false := by decide
theorem test_wf_enableSet_reset : (Instr.enableSet 3).wf = false := by decide
theorem test_wf_enableClear : (Instr.enableClear 4).wf = true ∧ (Instr.enableClear 1).wf = false := by decide
theorem test_wf_enableClear_reset : (Instr.enableClear 2).wf = false := by decide
theorem test_wf_softReset : (Instr.softReset 7).wf = true ∧ (Instr.softReset 5).wf = false := by decide
theorem test_wf_intEnable : (Instr.intEnable 5).wf = true ∧ (Instr.intEnable 6).wf = false := by decide
theorem test_wf_indexErrorClear :
    (Instr.indexErrorClear 2048).wf = true ∧ (Instr.indexErrorClear 1024).wf = false := by decide
theorem test_wf_ignored_aligned :
    (Instr.ignoredRegisterWrite 20 15 7).wf = true ∧ (Instr.ignoredRegisterWrite 21 15 7).wf = false := by decide
theorem test_wf_ignored_taken :
    (Instr.ignoredRegisterWrite 16 7 0).wf = true ∧ (Instr.ignoredRegisterWrite 16 15 0).wf = false := by decide

/-! ### Figures that the spec works out -/

theorem test_root : isqrt 50000 = 223 ∧ isqrt 0 = 0 ∧ isqrt 160000000000 = 400000 := by decide +kernel
theorem test_period : stepPeriod (1 ^ 2) = 40000000 ∧ stepPeriod (400000 ^ 2) = 100 ∧ stepPeriod 50000 = 179372 := by
  decide +kernel
theorem test_pulse_bound : 500000 / 63 = 7936 ∧ stepPeriod (7936 ^ 2) = 5040 := by decide +kernel
theorem test_no_word_decodes (nbits w : Nat) : decodeTableWord nbits w = none := rfl

/-! ### Small states -/

/-- A 64-byte block with the given fields, as offset, size and value, and zero elsewhere. -/
def testBlock (fields : List (Nat × Nat × Nat)) : Block :=
  fields.foldl
    (fun b x => (List.range x.2.1).foldl
      (fun b i => b.setIfInBounds (x.1 + i) (BitVec.ofNat 8 (x.2.2 / 256 ^ i))) b)
    (Vector.replicate 64 0)

/-- A setup block: rings of 64, 32 and 32 records, count 8, delay 1000 µs, initial pattern 15, safe pattern 48. -/
def testSetup : Block :=
  testBlock [(0, 8, 65536), (8, 8, 131072), (16, 8, 262144), (24, 1, 6), (25, 1, 5), (26, 1, 5), (28, 4, 8),
    (32, 4, 1000), (44, 1, 15), (45, 1, 48)]

/-- The part in STARTING, with its setup read under way. -/
def testStarting : State := { State.reset with part := .starting, setupRead := some 4096 }

/-- The part in RUNNING. -/
def testOn : State := loadSetup testSetup testStarting

/-- A configuration: on, a pulse of 5 µs, limits enabled. -/
def testCfg : ChanConfig := { ChanConfig.reset with enable := true, limpEnable := true, limnEnable := true }

/-- Channel 0 IDLE with DIR high, profile 0 DEFINED. -/
def testIdle : State :=
  (testOn.modChan 0 fun ch => { ch with cfg := testCfg, state := .idle, pgn := { ch.pgn with dirHigh := true } }).setProfile 0
    (some { vs := 100, vc := 1000, a := 5000, b := 5000 })

/-- Channels 0 and 1 IDLE. -/
def testTwo : State := testIdle.modChan 1 fun ch => { ch with cfg := testCfg, state := .idle }

/-- A record HOLDING in a ring's head buffer. -/
def testHold (ring : Ring) (r : Block) (s : State) : State := s.setRing ring { s.ring ring with buffer := .holding r }

/-- The state a command leaves. -/
def testAfter (c : Instr) (s : State) : State :=
  match exec c s with
  | .next t => t
  | .fault _ => s
  | .refused _ => s

/-- A state at another instant. -/
def testAt (now : Nat) (s : State) : State := { s with now := now }

/-- A qualifier whose pin has been at a level since instant 0. -/
def testPin (level qualified : Bool) : Qual where
  level := level
  since := 0
  before := none
  qualified := qualified

/-- A command's next state meets a test. -/
def testNext (c : Instr) (s : State) (p : State → Bool) : Bool :=
  match exec c s with
  | .next t => p t
  | .fault _ => false
  | .refused _ => false

/-- MOVE of channel 0: relative, by an amount, with profile 0. -/
def testMove (amount : Nat) : Block := testBlock [(0, 1, 1), (4, 4, 7), (8, 1, 1), (12, 4, amount)]

/-- MOVE of channel 0 with CHAIN and Ve 500. -/
def testChain : Block := testBlock [(0, 1, 1), (4, 4, 8), (8, 1, 1), (9, 1, 1), (12, 4, 100), (16, 4, 500)]

def testDwell : Block := testBlock [(0, 1, 2), (4, 4, 9), (8, 3, 10)]
def testSetPosition : Block := testBlock [(0, 1, 3), (4, 4, 10), (8, 4, 1234)]
def testMark : Block := testBlock [(0, 1, 4), (4, 4, 11), (8, 1, 1), (9, 1, 2)]
/-- RENDEZVOUS of a mask with an EXTERNAL flag, 5 ms. -/
def testRdv (mask external : Nat) : Block := testBlock [(0, 1, 5), (4, 4, 12), (8, 1, mask), (9, 1, external), (12, 4, 5)]
def testProfile (vs : Nat) : Block :=
  testBlock [(0, 1, 6), (4, 4, 13), (8, 1, 3), (12, 4, vs), (16, 4, 1000), (20, 3, 5000), (24, 3, 5000)]
def testFence : Block := testBlock [(0, 1, 7), (4, 4, 14)]
def testNop : Block := testBlock [(0, 1, 8), (4, 4, 15)]
/-- HALT of channel 0 with a mode. -/
def testHalt (mode : Nat) : Block := testBlock [(0, 1, 16), (4, 4, 16), (8, 1, 1), (9, 1, mode)]
def testResume : Block := testBlock [(0, 1, 17), (4, 4, 17), (8, 1, 3)]
/-- OVERRIDE_RATE of a channel at a rate. -/
def testOverride (channel rate : Nat) : Block := testBlock [(0, 1, 18), (1, 1, channel), (4, 4, 18), (8, 4, rate)]
def testCancel : Block := testBlock [(0, 1, 19), (4, 4, 19), (8, 4, 12)]
/-- SET_WATCH 2: POSITION 1 of channel 0, both senses, ONESHOT, NOTIFY, start armed. -/
def testSetWatch (kind : Nat) : Block :=
  testBlock [(0, 1, 20), (4, 4, 20), (8, 1, 2), (9, 1, kind), (10, 1, 3), (13, 1, 1), (14, 1, 1), (15, 1, 1), (16, 4, 1)]
/-- CLEAR_WATCH of an index. -/
def testClearWatch (i : Nat) : Block := testBlock [(0, 1, 21), (4, 4, 21), (8, 1, i)]
/-- SET_CHANNEL of channel 0 with an enable field and a pulse width. -/
def testSetChannel (enable pulse : Nat) : Block :=
  testBlock [(0, 1, 22), (4, 4, 22), (8, 1, enable), (9, 1, pulse), (10, 1, 5), (12, 4, 100000), (16, 4, 2147483648),
    (20, 4, 2147483647), (24, 1, 1), (27, 1, 1)]
/-- QUERY of a channel. -/
def testQuery (channel : Nat) : Block := testBlock [(0, 1, 23), (1, 1, channel), (4, 4, 23)]
def testClearEstop : Block := testBlock [(0, 1, 24), (4, 4, 24)]
def testBadKind : Block := testBlock [(0, 1, 99), (4, 4, 25)]

/-- Channel 0 RUNNING a MOVE of 100 steps, its first step just emitted and its pulse high. -/
def testRunning : State := testAfter (.move .main) (testHold .main (testMove 100) testIdle)

/-- Channel 0 RUNNING, its next step scheduled and STEP low. -/
def testStepNext : State := testAfter (.pulseEnd 0) (testAt 200 testRunning)

/-- Channel 0 in SETTLE before a MOVE of 2 steps in the other direction. -/
def testSettling : State := testAfter (.move .main) (testHold .main (testMove 4294967294) testIdle)

/-- Channel 0 DWELLING. -/
def testDwelling : State := testAfter (.dwell .main) (testHold .main testDwell testIdle)

/-- Channel 0 WAITING at slot 0, of which channel 1 is the other member and DWELLING. -/
def testWaiting : State :=
  let s := testTwo.modChan 1 fun ch => { ch with state := .dwelling, queue := [.dwell 1 1000], dwellStart := some 0 }
  testAfter (.rendezvous .main) (testHold .main (testRdv 3 0) s)

/-- An EXTERNAL slot 0 of channel 0, SYNCING. -/
def testSyncing : State := testAfter (.rendezvous .main) (testHold .main (testRdv 1 1) testIdle)

/-- One watch ARMED on the rise of capture input 0. -/
def testWatch : Watch where
  state := .armed
  channel := 0
  cond := .edge 0 .both false
  notify := true
  decel := 0
  abrupt := 0
  auxSet := 1
  auxClear := 2
  arm := none

/-- A completion write under way. -/
def testWriting : State :=
  testAfter .completionWriteBegin (testAfter (.nop .main) (testHold .main testNop testOn))

/-- The ESTOP# and RST# pins low for 4 µs, their changes not taken yet, as channel 0 runs. -/
def testPinsLow : State := testAt 160 { testRunning with estop := testPin false false, rst := testPin false false }

/-- Channel 0 RUNNING with its LIMP pin just sampled active. -/
def testLimitHit : State := testRunning.modChan 0 fun ch => { ch with limp := testPin false false }

/-- Capture input 0 just sampled low, watch 2 ARMED on its edges. -/
def testCapture : State :=
  let s := testIdle.setWatch 2 (some testWatch)
  { s with caps := s.caps.set 0 (testPin false true) }

/-- A watch of channel 0 at 2 going up, under REARM with H 5, that slows channel 0, stops channel 1 and arms watch 5. -/
def testStepWatch : Watch where
  state := .armed
  channel := 0
  cond := .position 2 .up (some 5)
  notify := true
  decel := 1
  abrupt := 2
  auxSet := 64
  auxClear := 1
  arm := some 5

/-- Channel 0 about to step to 2, channel 1 DWELLING; watch 2 is `testStepWatch`, 5 DORMANT, 7 COOLING from 0 with H 2. -/
def testArmed : State :=
  ((((testAt 283687 testStepNext).setWatch 2 (some testStepWatch)).setWatch 5 (some { testStepWatch with state := .dormant })).setWatch
    7 (some { testStepWatch with state := .cooling, cond := .position 0 .up (some 2) })).setChan 1 (testDwelling.chan 0)

/-- A channel stopped with STEP high: HELD, its pulse still to end. -/
def testPulseHeld : State := testAfter (.halt .ctrl) (testHold .ctrl (testHalt 2) testRunning)

/-- Channel 0 STOPPING at its start rate, as its step's period runs. -/
def testStopping : State := testAfter (.halt .ctrl) (testHold .ctrl (testHalt 1) testRunning)

/-! ### One step of each command

Each `step_…` states one step; the theorem of its family shows them all. -/

abbrev step_move_steps : Prop :=
  testNext (.move .main) (testHold .main (testMove 100) testIdle) (fun t => (t.chan 0).state == .running && t.position 0 == 1 && (t.chan 0).pgn.pulseEnd == some 200 && (t.chan 0).pgn.remaining == 99 && (t.chan 0).pgn.rateSq == 10000 && t.mainRing.credits == 1)
      = true
abbrev step_move_limit : Prop :=
  testNext (.move .main) (testHold .main (testMove 100) (testIdle.modChan 0 fun ch => { ch with limp := { ch.limp with qualified := true } })) (fun t => (t.chan 0).state == .held && (t.posting.map (·.status)) == [.limit])
      = true
abbrev step_dwell : Prop :=
  testNext (.dwell .main) (testHold .main testDwell testIdle) (fun t => (t.chan 0).state == .dwelling && dueDwell (t.chan 0) == some 400)
      = true
abbrev step_setPosition : Prop :=
  testNext (.setPosition .main) (testHold .main testSetPosition testIdle) (fun t => t.position 0 == 1234 && (t.chan 0).state == .idle && (t.posting.map (·.position)) == [1234])
      = true
abbrev step_mark : Prop :=
  testNext (.mark .main) (testHold .main testMark testIdle) (fun t => t.aux == 13 && (t.posting.map (·.auxA)) == [13])
      = true
abbrev step_rendezvous_released : Prop :=
  testNext (.rendezvous .main) (testHold .main (testRdv 3 0) testTwo) (fun t => t.openList == [] && (t.posting.map (fun r => (r.status, r.auxB))) == [(.ok, 3)])
      = true
abbrev step_rendezvous_gathers : Prop :=
  testNext (.dwellExpiry 1) (testAt 40000 testWaiting) (fun t => t.openList == [] && (t.chan 0).state == .idle && (t.chan 1).state == .idle)
      = true
abbrev step_rendezvous_waits : Prop :=
  testWaiting.openList = [0] ∧ (testWaiting.chan 0).state = .waiting
abbrev step_setProfile : Prop :=
  testNext (.setProfile .main) (testHold .main (testProfile 100) testOn) (fun t => t.profiles[3] == some { vs := 100, vc := 1000, a := 5000, b := 5000 } && (t.posting.map (·.auxA)) == [3])
      = true
abbrev step_fence : Prop :=
  testNext (.fence .main) (testHold .main testFence testOn) (fun t => (t.posting.map (·.tag)) == [14]) = true
abbrev step_fence_waits : Prop :=
  testNext (.fence .main) (testHold .main testFence { testOn with mainRing := { testOn.mainRing with credits := 1 } }) (fun t => t.stall == .fence && t.posting == [])
      = true
abbrev step_nop : Prop :=
  testNext (.nop .ctrl) (testHold .ctrl testNop testOn) (fun t => (t.posting.map (·.auxB)) == [1] && t.ctrlRing.fetch == 1)
      = true
abbrev step_badKindRecord : Prop :=
  testNext (.badKindRecord .main) (testHold .main testBadKind testOn) (fun t => (t.posting.map (fun r => (r.kind, r.status))) == [(99, .badKind)])
      = true

theorem test_steps_main :
    step_move_steps ∧ step_move_limit ∧ step_dwell ∧ step_setPosition ∧ step_mark
      ∧ step_rendezvous_released ∧ step_rendezvous_gathers ∧ step_rendezvous_waits
      ∧ step_setProfile ∧ step_fence ∧ step_fence_waits ∧ step_nop ∧ step_badKindRecord := by
  decide +kernel

abbrev step_halt_abrupt : Prop :=
  (testPulseHeld.chan 0).state = .held ∧ testPulseHeld.halts.length = 1 ∧ (testPulseHeld.chan 0).kept.isSome = true
abbrev step_halt_decel : Prop :=
  (testStopping.chan 0).state = .stopping ∧ dueStopRest (testStopping.chan 0) = some 400000
abbrev step_resume : Prop :=
  testNext (.resume .ctrl) (testHold .ctrl testResume (testIdle.modChan 0 fun ch => { ch with state := .held })) (fun t => (t.chan 0).state == .idle && (t.posting.map (·.auxA)) == [1])
      = true
abbrev step_overrideRate : Prop :=
  testNext (.overrideRate .ctrl) (testHold .ctrl (testOverride 0 600) testRunning) (fun t => ((t.chan 0).headMove?.map (·.profile.vc)) == some 600 && (t.posting.map (·.auxA)) == [1000])
      = true
abbrev step_cancelRendezvous : Prop :=
  testNext (.cancelRendezvous .ctrl) (testHold .ctrl testCancel testWaiting) (fun t => t.openList == [] && (t.chan 0).state == .held && (t.chan 1).state == .held && (t.posting.map (·.status)) == [.cancelled, .halted, .ok])
      = true
abbrev step_setWatch : Prop :=
  testNext (.setWatch .ctrl) (testHold .ctrl (testSetWatch 1) testOn) (fun t => watchCode t.watches[2] == 2 && (t.posting.map (·.auxB)) == [0])
      = true
abbrev step_clearWatch : Prop :=
  testNext (.clearWatch .ctrl) (testHold .ctrl (testClearWatch 5) (testOn.setWatch 5 (some testWatch))) (fun t => t.watches[5] == none && (t.posting.map (·.auxB)) == [2])
      = true
abbrev step_setChannel : Prop :=
  testNext (.setChannel .ctrl) (testHold .ctrl (testSetChannel 1 4) testOn) (fun t => (t.chan 0).state == .idle && (t.chan 0).cfg.pulseWidth == 4 && (t.posting.map (·.auxB)) == [1])
      = true
abbrev step_setChannel_pulse : Prop :=
  testNext (.setChannel .ctrl) (testHold .ctrl (testSetChannel 1 6) testOn) (fun t => (t.chan 0).state == .disabled && (t.posting.map (·.status)) == [.badField])
      = true
abbrev step_query : Prop :=
  testNext (.query .ctrl) (testHold .ctrl (testQuery 0) testRunning) (fun t => (t.posting.map (fun r => (r.auxA, r.auxB))) == [(100, 2 + 32 + 256 + 4096 + 8192)])
      = true
abbrev step_query_counts : Prop :=
  testNext (.query .ctrl) (testHold .ctrl (testQuery 0) (testAt 283687 testStepNext)) (fun t => (t.posting.map (·.position)) == [1] && testNext (.stepEmission 0) t (fun u => (u.posting.map (·.position)) == [2]))
      = true
abbrev step_clearEstop : Prop :=
  testNext (.clearEstop .ctrl) (testHold .ctrl testClearEstop { testOn with estopLatch := true }) (fun t => t.estopLatch == false && (t.posting.map (·.auxA)) == [1])
      = true

theorem test_steps_control :
    step_halt_abrupt ∧ step_halt_decel ∧ step_resume ∧ step_overrideRate
      ∧ step_cancelRendezvous ∧ step_setWatch ∧ step_clearWatch ∧ step_setChannel
      ∧ step_setChannel_pulse ∧ step_query ∧ step_query_counts ∧ step_clearEstop := by
  decide +kernel

abbrev step_enableSet : Prop :=
  testNext (.enableSet 1) { State.reset with setupLo := 4096 } (fun t => t.part == .starting && t.setupRead == some 4096)
      = true
abbrev step_enableClear : Prop :=
  testNext (.enableClear 0) testRunning (fun t => t.part == .draining && (t.chan 0).state == .stopping) = true
abbrev step_softReset : Prop :=
  testNext (.softReset 2) { testOn with setupLo := 5, intEnable := true } (fun t => t.part == .off && t.setupLo == 5 && t.intEnable)
      = true
abbrev step_intEnable : Prop :=
  testNext (.intEnable 5) { testOn with intCause := 1, msiEnabled := true } (fun t => t.irq && t.messages == 1 && t.part == .running)
      = true
abbrev step_setup_writes : Prop :=
  testNext (.setupLo 9) State.reset (fun t => t.setupLo == 9) = true ∧ testNext (.setupHi 9) State.reset (fun t => t.setupHi == 9)
      = true
abbrev step_posts : Prop :=
  testNext (.mainPost 63) testOn (fun t => t.mainRing.post == 63 && !t.indexError)
      = true ∧ testNext (.ctrlPost 32) testOn (fun t => t.ctrlRing.post == 0 && t.indexError)
      = true
abbrev step_cplRetire : Prop :=
  testNext (.cplRetire 31) testOn (fun t => t.cplRetire == 31) = true
abbrev step_intEnable_legacy : Prop :=
  testNext (.intEnable 5) { testOn with intCause := 1 } (fun t => t.irq && t.messages == 0 && t.legacyInterrupt)
      = true
abbrev step_ignored_wide : Prop :=
  windowCommands64 8 255 (5 * 4294967296 + 7) = [.setupLo 7, .setupHi 5]
abbrev step_ignored_widePast : Prop :=
  windowCommands64 60 255 4294967296 = [.ignoredRegisterWrite 60 15 0]
abbrev step_intCauseClear : Prop :=
  testNext (.intCauseClear 5) { testOn with intCause := 15 } (fun t => t.intCause == 10) = true
abbrev step_indexErrorClear : Prop :=
  testNext (.indexErrorClear 2048) { testOn with indexError := true } (fun t => !t.indexError) = true
abbrev step_ignoredRegisterWrite : Prop :=
  testNext (.ignoredRegisterWrite 8 7 9) testOn (fun t => t == testOn) = true

theorem test_steps_register :
    step_enableSet ∧ step_enableClear ∧ step_softReset ∧ step_intEnable
      ∧ step_setup_writes ∧ step_posts ∧ step_cplRetire ∧ step_intEnable_legacy
      ∧ step_ignored_wide ∧ step_ignored_widePast ∧ step_intCauseClear ∧ step_indexErrorClear
      ∧ step_ignoredRegisterWrite := by
  decide +kernel

abbrev step_pin_reset : Prop :=
  testNext .pinResetAssert testPinsLow (fun t => t.inReset && t.part == .off && (t.chan 0).pgn.pulseEnd == none)
      = true ∧ testNext .pinResetAssert (testAt 39 testPinsLow) (fun t => !t.inReset && t.part == .running)
      = true ∧ testNext .pinResetRelease { testAt 40 State.reset with rst := testPin true true } (fun t => !t.inReset && t.part == .off)
      = true
abbrev step_other_resets : Prop :=
  testNext .conventionalReset testRunning (fun t => t.part == .off && t.setupLo == 0)
      = true ∧ testNext .functionLevelReset testRunning (fun t => t.part == .off && t.posting == [])
      = true
abbrev step_estopAssertion : Prop :=
  testNext .estopAssertion testPinsLow (fun t => t.estopLatch && (t.chan 0).state == .held && t.aux == 48 && (t.posting.map (·.auxA)) == [1])
      = true
abbrev step_estopAssertion_early : Prop :=
  testNext .estopAssertion (testAt 159 testPinsLow) (fun t => !t.estopLatch) = true
abbrev step_estopNegation : Prop :=
  testNext .estopNegation { testAt 160 testOn with estop := testPin true true } (fun t => !t.estop.qualified) = true
abbrev step_limitQualifiedChange : Prop :=
  testNext (.limitQualifiedChange 0 .limp true) testLimitHit (fun t => (t.chan 0).state == .held && (t.chan 0).kept.isSome && (t.posting.map (·.kind)) == [33])
      = true
abbrev step_qualifiedEdge : Prop :=
  testNext (.qualifiedEdge 0 false) testCapture (fun t => watchCode t.watches[2] == 4 && t.aux == 13 && (t.posting.map (·.auxA)) == [1 + 1024])
      = true
abbrev step_qualifiedEdge_turnsBack : Prop :=
  ((testPin true true).sample true false 7).completes false 1 46 = false
      ∧ ((testPin true true).sample true false 7).completes false 1 47 = true
      ∧ ((((testPin true true).sample true false 7).sample false true 47).completes true 1 47)
      = true ∧ ((((testPin true true).sample true false 7).sample false true 46).completes true 1 46)
      = false
abbrev step_qualifiedEdge_counts : Prop :=
  testNext (.qualifiedEdge 0 false) (let s := testAt 283687 (testStepNext.setWatch 2 (some testWatch)); { s with caps := s.caps.set 0 (testPin false true) }) (fun t => (t.posting.map (·.position)) == [1] && testNext (.stepEmission 0) t (fun u => u.position 0 == 2 && (u.posting.map (·.position)) == [2]))
      = true
abbrev step_xsyncQualified : Prop :=
  testNext .xsyncQualified (testAt 40 testSyncing) (fun t => t.openList == [] && (t.chan 0).state == .idle) = true
abbrev step_xsyncQualified_early : Prop :=
  testNext .xsyncQualified (testAt 39 testSyncing) (fun t => t.openList == [0] && (t.chan 0).state == .waiting) = true

theorem test_steps_pin :
    step_pin_reset ∧ step_other_resets ∧ step_estopAssertion ∧ step_estopAssertion_early
      ∧ step_estopNegation ∧ step_limitQualifiedChange ∧ step_qualifiedEdge
      ∧ step_qualifiedEdge_turnsBack ∧ step_qualifiedEdge_counts ∧ step_xsyncQualified
      ∧ step_xsyncQualified_early := by
  decide +kernel

abbrev step_pulseEnd : Prop :=
  testNext (.pulseEnd 0) (testAt 200 testRunning) (fun t => (t.chan 0).pgn.pulseEnd == none) = true
abbrev step_stepEmission : Prop :=
  testNext (.stepEmission 0) (testAt 283687 testStepNext) (fun t => 40000000 / 141 == 283687 && t.position 0 == 2 && (t.chan 0).pgn.rateSq == 20000)
      = true
abbrev step_stepEmission_watches : Prop :=
  testNext (.stepEmission 0) testArmed (fun t => t.position 0 == 2 && (t.chan 0).state == .stopping && (t.chan 1).state == .held && t.aux == 78 && ([2, 5, 7] : List WatchIx).map (fun i => watchCode t.watches[i]) == [3, 2, 2] && (t.posting.map fun r => (r.kind, r.position)) == [(32, 2), (2, 0)])
      = true
abbrev step_settleEnd : Prop :=
  testNext (.settleEnd 0) (testAt 200 testSettling) (fun t => t.position 0 == 4294967295 && (t.chan 0).pgn.phase == .final)
      = true
abbrev step_segmentEnd : Prop :=
  testNext (.segmentEnd 0) (testAt 400000 (testAfter (.pulseEnd 0) (testAt 200 (testAfter (.move .main) (testHold .main (testMove 1) testIdle))))) (fun t => (t.chan 0).state == .idle && (t.posting.map (·.auxA)) == [1])
      = true
abbrev step_segmentEnd_limit : Prop :=
  testNext (.segmentEnd 0) (testAt 400000 ((testAfter (.pulseEnd 0) (testAt 200 (testAfter (.move .main) (testHold .main (testMove 1) testIdle)))).modChan 0 fun ch => { ch with limp := testPin false false, queue := ch.queue ++ ch.queue })) (fun t => (t.chan 0).state == .held && (t.posting.map (·.status)) == [.ok, .limit] && t.position 0 == 1)
      = true
abbrev step_stopRest : Prop :=
  testNext (.stopRest 0) (testAt 400000 (testAfter (.pulseEnd 0) (testAt 200 testStopping))) (fun t => (t.chan 0).state == .held && t.halts == [] && (t.posting.map (·.status)) == [.halted, .ok])
      = true
abbrev step_dwellExpiry : Prop :=
  testNext (.dwellExpiry 0) (testAt 400 testDwelling) (fun t => (t.chan 0).state == .idle && t.posting.length == 1)
      = true
abbrev step_rendezvousExpiry : Prop :=
  testNext (.rendezvousExpiry 0) (testAt 200000 testSyncing) (fun t => (t.posting.map (·.status)) == [.expired])
      = true
abbrev step_coalescingDelayExpiry : Prop :=
  testNext .coalescingDelayExpiry (testAt 40000 { testOn with unannounced := 1, oldest := some 0 }) (fun t => t.intCause == 1)
      = true
abbrev step_early : Prop :=
  testNext (.dwellExpiry 0) (testAt 399 testDwelling) (fun t => t == testAt 399 testDwelling)
      = true ∧ testNext (.stepEmission 0) (testAt 283686 testStepNext) (fun t => t == testAt 283686 testStepNext)
      = true

theorem test_steps_timing :
    step_pulseEnd ∧ step_stepEmission ∧ step_stepEmission_watches ∧ step_settleEnd
      ∧ step_segmentEnd ∧ step_segmentEnd_limit ∧ step_stopRest ∧ step_dwellExpiry
      ∧ step_rendezvousExpiry ∧ step_coalescingDelayExpiry ∧ step_early := by
  decide +kernel

abbrev step_fetch : Prop :=
  testNext (.fetchBegin .main) { testOn with mainRing := { testOn.mainRing with post := 1 } } (fun t => t.mainRing.buffer == .fetching 65536 && testNext (.fetchDone .main .live testNop) t (fun u => u.mainRing.buffer == .holding testNop))
      = true
abbrev step_fetchFault : Prop :=
  testNext (.fetchFault .main .live) { testOn with mainRing := { testOn.mainRing with buffer := .fetching 65536 } } (fun t => t.mainRing.suspended && (t.posting.map (·.kind)) == [35])
      = true
abbrev step_completionWrite : Prop :=
  testNext (.completionWriteDone .live) testWriting (fun t => t.cplWrite == 1 && t.posting == [] && t.mainRing.credits == 0 && t.unannounced == 1)
      = true
abbrev step_completionWrite_bytes : Prop :=
  (testWriting.writing, testWriting.writeBytes.map (·.take 3)) = (some 262144, some [1, 8, 0])
abbrev step_completionWriteFault : Prop :=
  testNext (.completionWriteFault .live) testWriting (fun t => t.part == .failed && t.intCause == 4 && t.posting.length == 1)
      = true
abbrev step_setupReadDone : Prop :=
  testNext (.setupReadDone .live testSetup) testStarting (fun t => t.part == .running && t.aux == 15 && placeSize t.mainRing.place == 64)
      = true
abbrev step_setup_ringSize : Prop :=
  setupFault? (testSetup.setIfInBounds 24 13) = some .ringSize
abbrev step_setupReadFail : Prop :=
  testNext (.setupReadFail .live) testStarting (fun t => t.part == .off && t.faultCode == .setupRead && t.intCause == 8)
      = true
abbrev step_drainComplete : Prop :=
  testNext .drainComplete { testOn with part := .draining } (fun t => t.part == .off) = true

theorem test_steps_dma :
    step_fetch ∧ step_fetchFault ∧ step_completionWrite ∧ step_completionWrite_bytes
      ∧ step_completionWriteFault ∧ step_setupReadDone ∧ step_setup_ringSize
      ∧ step_setupReadFail ∧ step_drainComplete := by
  decide +kernel

/-! ### What the statements assume: states and operands that meet it

`test_meets_X` is about the statement `Obligations.X`, clause by clause. The facts that are evaluated stand in a few theorems
before them. -/

/-- `Taken`, as something to evaluate. -/
abbrev TakenNow (s : State) (ring : Ring) (k : ReqKind) (r : Block) : Prop :=
  s.inReset = false ∧ takeable s ring = some r ∧ recReq? r = some k ∧ intakeRefusal ring r = none

theorem test_taken {s : State} {ring : Ring} {k : ReqKind} {r : Block} (h : TakenNow s ring k r) : Taken s ring k r :=
  ⟨h.1, h.2.1, h.2.2.1, h.2.2.2⟩

/-- `haltsSettled`, as something to evaluate. -/
abbrev Settled (s : State) : Prop :=
  ∀ h ∈ s.halts, h.waiting ≠ 0 ∧ ∀ c : Chan, hasChan h.waiting c = true → (s.chan c).comingToRest = true

/-- `queuesShaped`, as something to evaluate. -/
abbrev Shaped (s : State) : Prop := ∀ c : Chan, (s.chan c).shaped = true

/-- No slot is in use. -/
abbrev NoSlots (s : State) : Prop := (∀ i : SlotIx, s.slots[i] = none) ∧ s.openList = [] ∧ s.xsyncLow = false

theorem test_sound {s : State} (h : NoSlots s) : s.slotsSound := by
  obtain ⟨hs, ho, hx⟩ := h
  refine ⟨by rw [ho]; exact List.nodup_nil, fun i => ?_, fun i sl he => ?_, fun i j a b he => ?_, ?_⟩
  · rw [ho, hs i]; simp
  · rw [hs i] at he; cases he
  · rw [hs i] at he; cases he
  · rw [hx]
    refine ⟨fun h => (by cases h), ?_⟩
    rintro ⟨i, sl, he, _⟩
    rw [hs i] at he
    cases he

/-- `slotsSound`, as something to evaluate. -/
abbrev SlotsOk (s : State) : Prop :=
  s.openList.Nodup ∧ (∀ i : SlotIx, i ∈ s.openList ↔ (s.slots[i]).isSome = true)
    ∧ (∀ i : SlotIx, ∀ sl ∈ s.slots[i], sl.members ≠ 0 ∧ sl.arrived &&& sl.members = sl.arrived
        ∧ (sl.state = .syncing ↔ sl.arrived = sl.members) ∧ (sl.state = .syncing → sl.external = true))
    ∧ (∀ i j : SlotIx, ∀ a ∈ s.slots[i], ∀ b ∈ s.slots[j], a.external = true → b.external = true → i = j)
    ∧ (s.xsyncLow = true ↔ ∃ i : SlotIx, ∃ sl ∈ s.slots[i], sl.external = true ∧ sl.arrived ≠ sl.members)

theorem test_slots {s : State} (h : SlotsOk s) : s.slotsSound :=
  ⟨h.1, h.2.1, fun i sl he => h.2.2.1 i sl he, fun i j a b ha hb => h.2.2.2.1 i j a ha b hb, h.2.2.2.2⟩

/-- `outputsSound`, as something to evaluate. -/
abbrev OutputsNow (s : State) : Prop :=
  (s.part = .off ∨ s.part = .starting →
    ∀ c : Chan, (s.chan c).state ∈ [ChanState.disabled, .idle, .held] ∧ (s.chan c).pgn.pulseEnd = none)
  ∧ (s.part = .draining ∨ s.part = .failed → ∀ c : Chan, (s.chan c).state ∈ [ChanState.disabled, .idle, .stopping, .held])
  ∧ (s.part ≠ .running → s.openList = [] ∧ s.xsyncLow = false)
  ∧ (s.inReset = true → s.aux = 0 ∧ s.xsyncLow = false
      ∧ ∀ c : Chan, (s.chan c).pgn.pulseEnd = none ∧ (s.chan c).pgn.dirHigh = false)

theorem test_outputs {s : State} (h : OutputsNow s) : s.outputsSound := h

/-- Every watch is EMPTY. -/
abbrev NoWatches (s : State) : Prop := ∀ i : WatchIx, s.watches[i] = none

theorem test_none {s : State} {c : Chan} {position : Word} {positive : Bool} (h : NoWatches s) :
    NoneFires s c position positive := by
  intro i w he
  rw [h i] at he
  cases he

/-- A step answers a next state. -/
abbrev Steps (s : State) : Prop :=
  (match step s with
    | .next _ => true
    | .fault _ => false
    | .refused _ => false) = true

theorem test_steps {s : State} (h : Steps s) : ∃ t, step s = .next t := by
  unfold Steps at h
  split at h
  · exact ⟨_, by assumption⟩
  · cases h
  · cases h

/-- The profiles' condition, as something to evaluate. -/
abbrev ProfilesOk (s : State) : Prop := ∀ i : ProfIx, (s.profiles[i]).all Profile.valid = true

theorem test_profiles {s : State} (h : ProfilesOk s) : s.profilesValid := by
  intro i p he
  have := h i
  rw [he] at this
  exact this

theorem test_notHolding {b : Buffer} (h : b = .empty) : ∀ r, b ≠ .holding r := by
  intro r he
  rw [h] at he
  cases he

/-- The only watch is watch 2. -/
abbrev OneWatch (s : State) : Prop := ∀ j : WatchIx, j ≠ 2 → s.watches[j] = none

theorem test_oneWatch {s : State} (h : OneWatch s) (input : CapIx) (rise : Bool) :
    ∀ (j : WatchIx) x, j ≠ 2 → s.watches[j] = some x → ¬(x.state = .armed
      ∧ ∃ edge rearm, x.cond = .edge input edge rearm
      ∧ (edge = .both ∨ (edge = .rise ∧ rise = true) ∨ (edge = .fall ∧ rise = false))) := by
  intro j x hj he
  rw [h j hj] at he
  cases he

theorem test_noEdge {s : State} (h : NoWatches s) (input : CapIx) (rise : Bool) :
    ∀ (i : WatchIx) w, s.watches[i] = some w → ¬(w.state = .armed ∧ ∃ edge rearm, w.cond = .edge input edge rearm
      ∧ (edge = .both ∨ (edge = .rise ∧ rise = true) ∨ (edge = .fall ∧ rise = false))) := by
  intro i w he
  rw [h i] at he
  cases he

/-- The entry that `testMove` makes. -/
def testEntry (amount : Nat) : MoveEntry where
  tag := 7
  mode := .relative
  amount := BitVec.ofNat 32 amount
  exitRate := none
  profile := { vs := 100, vc := 1000, a := 5000, b := 5000 }
  overridden := false

/-- A MOVE held in the main ring of the part whose channel 0 is IDLE. -/
def testMoveHeld (amount : Nat) : State := testHold .main (testMove amount) testIdle

/-- A record held in the main ring, and in the control ring, of the part with channel 0 IDLE. -/
def testMain (r : Block) : State := testHold .main r testIdle
def testCtrl (r : Block) : State := testHold .ctrl r testIdle

/-- Channel 0 HELD. -/
def testHeld : State := testIdle.modChan 0 fun ch => { ch with state := .held }

/-- Channel 0 RUNNING with 8 entries. -/
def testFull : State := testRunning.modChan 0 fun ch => { ch with queue := ch.queue ++ List.replicate 7 (.dwell 1 1) }

/-- Every slot in use. -/
def testNoSlot : State :=
  { testIdle with
    slots := Vector.replicate 8 (some {
      state := .opened, tag := 1, members := 2, arrived := 0, timeout := 0, expiry := none, external := false }) }

/-- Channel 0 RUNNING a head bound to the MOVE behind it. -/
def testBound : State :=
  testRunning.modChan 0 fun ch =>
    { ch with
      queue := [.move { testEntry 100 with exitRate := some 800 }, .move (testEntry 50)]
      binding := .bound 500 100 1 { endPos := 150, steps := 50, positive := true } }

/-- The same at its segment end, STEP low. -/
def testBoundEnd : State :=
  testBound.modChan 0 fun ch =>
    { ch with pgn := { ch.pgn with remaining := 0, schedule := none, pulseEnd := none, lastEnd := some 900 } }

/-- Channel 0 at the segment end of its only MOVE. -/
def testLastEnd : State :=
  testRunning.modChan 0 fun ch =>
    { ch with pgn := { ch.pgn with remaining := 0, schedule := none, pulseEnd := none, lastEnd := some 900 } }

/-- Channel 0 STOPPING, with its last step emitted. -/
def testStopEnd : State := testLastEnd.modChan 0 fun ch => { ch with state := .stopping }

/-- The same, with one step left, in a phase, or under a stop mode. -/
def testStepWith (f : Pgn → Pgn) : State := testStepNext.modChan 0 fun ch => { ch with pgn := f ch.pgn }

/-- Channel 0 STOPPING above its start rate. -/
def testStopFast : State :=
  testStepNext.modChan 0 fun ch =>
    { ch with state := .stopping, pgn := { ch.pgn with stopMode := .decel } }

/-- Channel 0 RUNNING a MOVE with CHAIN whose binding is PENDING, STEP low. -/
def testPending : State := testAfter (.pulseEnd 0) (testAt 200 (testAfter (.move .main) (testMain testChain)))

/-- The entry that `testChain` makes. -/
def testChainEntry : MoveEntry := { testEntry 100 with tag := 8, exitRate := some 500 }


/-- Channel 0 RUNNING, its second step emitted above Vs. -/
def testSecond : State := testAfter (.stepEmission 0) (testAt 283687 testStepNext)

/-- Channel 0 in SETTLE, under a hold that ends after it. -/
def testSettleHeld : State :=
  testSettling.modChan 0 fun ch => { ch with pgn := { ch.pgn with stopHold := some 199 } }

/-- Slot 0 GATHERING: channel 0 WAITING, channel 1 RUNNING with its MARKER behind its MOVE. -/
def testGathering : State :=
  testAfter (.rendezvous .main) (testHold .main (testRdv 3 0) (testTwo.setChan 1 (testRunning.chan 0)))

/-- Channel 0 IDLE and channel 1 RUNNING. -/
def testMixed : State := testTwo.setChan 1 (testRunning.chan 0)

/-- Slot 0 GATHERING as in `testGathering`, and EXTERNAL. -/
def testGatheringX : State := testAfter (.rendezvous .main) (testHold .main (testRdv 3 1) testMixed)

/-- Slot 0 OPEN: channels 0 and 1 RUNNING, each with its MARKER behind its MOVE; with a timeout, and without. -/
def testOpenedBy (r : Block) : State :=
  testAfter (.rendezvous .main) (testHold .main r (testRunning.setChan 1 (testRunning.chan 0)))
def testOpened : State := testOpenedBy (testRdv 3 0)
def testUntimed : State := testOpenedBy ((testRdv 3 0).setIfInBounds 12 0)

/-- Slot 0 GATHERING: channel 0 WAITING, channels 1 and 2 RUNNING. -/
def testThree : State :=
  testAfter (.rendezvous .main) (testHold .main (testRdv 7 0) (testMixed.setChan 2 (testRunning.chan 0)))

/-- The posting queue holding 16 notices. -/
def testCrowded (s : State) : State := { s with posting := List.replicate 16 (s.notice noticeEstop 0 0 0 0 0) }

/-- SET_WATCH 2: any edge of input 3, REARM, ARM of watch 15. -/
def testEdgeWatch : Block :=
  testBlock [(0, 1, 20), (4, 4, 20), (8, 1, 2), (9, 1, 2), (11, 1, 3), (12, 1, 3), (13, 1, 2), (26, 1, 1), (27, 1, 15)]

/-- SET_WATCH 2: POSITION 1 of channel 0, UP, REARM with H 4. -/
def testRearmWatch : Block :=
  testBlock [(0, 1, 20), (4, 4, 20), (8, 1, 2), (9, 1, 1), (10, 1, 1), (13, 1, 2), (16, 4, 1), (20, 2, 4)]

/-- A NOP's completion waiting to be written. -/
def testNopDone : State := testAfter (.nop .main) (testHold .main testNop testOn)
def testState1 : State := { testRunning with now := 200 }
def testState2 : State := { testOn with clockPart := 39 }
def testState3 : State := { testRunning with pending := [.intCauseClear 0] }
def testState4 : State := { testHeld with estopLatch := true, pending := [.pulseEnd 0] }
def testState5 : State := { testPulseHeld with now := 200, pending := [.pulseEnd 0] }
def testState6 : State := { testOn with msiEnabled := true }
def testState7 : State := { testSyncing with pending := [.intCauseClear 0] }
def testState8 : State := { testIdle with ctrlRing := { testIdle.ctrlRing with credits := 64 } }
def testState9 : State := { testIdle with mainRing := { testIdle.mainRing with credits := 1 } }
def testState10 : State := { testIdle with mainRing := { testIdle.mainRing with credits := 56 } }
def testState11 : State := { testHeld with estopLatch := true }
def testEntry12 : MoveEntry := { testEntry 100 with exitRate := some 800 }
def testState13 : State := { testIdle with estop := testPin false true }
def testState14 : State := { State.reset with setupLo := 4096 }
def testState15 : State := { State.reset with setupLo := 4097 }
def testState16 : State := { testIdle with caps := testIdle.caps.set 0 (testPin false true) }
def testState17 : State := { testOn with unannounced := 1, oldest := some 0 }
def testState18 : State := { testOn with mainRing := { testOn.mainRing with post := 1 } }
def testState19 : State := { testOn with mainRing := { testOn.mainRing with buffer := .fetching 65536 } }
def testState20 : State := { testNopDone with cplWrite := 31 }
def testState21 : State := { testWriting with cplWrite := 31 }
def testState22 : State := { testWriting with unannounced := 7 }
def testState23 : State := { testStarting with estop := testPin false true }
def testState24 : State := { testOn with part := .draining }
def testState25 : State := { testMoveHeld 4294967294 with pending := [.move .main] }

set_option maxRecDepth 4000 in
set_option synthInstance.maxSize 4096 in
set_option synthInstance.maxHeartbeats 400000 in
/-- Facts about the small states that the theorems below cite. -/
theorem test_facts_0 :
    (State.reset.pending = [] ∧ dueEvents State.reset = [])
    ∧ ((testHold .main testNop testOn).pending = [] ∧ dueEvents (testHold .main testNop testOn) = [.nop .main])
    ∧ (2 ≤ (dueEvents (testHold .main testNop (testHold .ctrl testNop testState1))).length)
    ∧ (testOn.part.counting = true ∧ testOn.clockPart < Config.cyclesPerUs ∧ testOn.clockPart ≠ 39)
    ∧ (testState2.clockPart < Config.cyclesPerUs ∧ testState2.clockPart = 39)
    ∧ (State.reset.part.counting = false ∧ (syncingSlot? State.reset).isSome = false)
    ∧ (testSyncing.part.counting = true ∧ testSyncing.clockPart < Config.cyclesPerUs
      ∧ (syncingSlot? testSyncing).isSome = true ∧ testSyncing.xsyncLow
      = false ∧ testSyncing.xsyncRun = some 0)
    ∧ (testSyncing.now + 1 < 0 + 40 ∧ 0 + 40 ≤ (testAt 39 testSyncing).now + 1)
    ∧ ((testPin false true).completes false 1 40 = true ∧ ({ testPin true true with since := 40, before := some 0 }).completes true 1 40
      = true)
    ∧ ((testAfter .pinResetAssert testPinsLow).inReset = true ∧ dueEvents { testAfter .pinResetAssert testPinsLow with now := 400, rst := testPin true true }
      = [.pinResetRelease])
    ∧ (testStepNext.inReset = false)
    ∧ (.stepEmission 0 ∉ dueEvents (testAt 283686 testStepNext) ∧ .stepEmission 0 ∈ dueEvents (testAt 283687 testStepNext))
    ∧ (.dwellExpiry 0 ∉ dueEvents (testAt 399 testDwelling) ∧ .dwellExpiry 0 ∈ dueEvents (testAt 400 testDwelling))
    ∧ (.xsyncQualified ∉ dueEvents (testAt 39 testSyncing) ∧ .xsyncQualified ∈ dueEvents (testAt 40 testSyncing))
    ∧ (∀ c : Chan, (testState3.chan c).cfg.valid = true)
    ∧ (ProfilesOk testState3)
    ∧ (Steps testState3)
    ∧ (testState3.mainRing.credits ≤ Config.creditMain ∧ testState3.mainRing.credits + testState3.ctrlRing.credits
      ≤ Config.creditTotal)
    ∧ (testState3.notices ≤ Config.noticeLimit ∧ testState3.lost ≤ 255)
    ∧ (∀ c : Chan, (testState3.chan c).queue.length ≤ Config.queueDepth) := by
  decide +kernel

set_option maxRecDepth 4000 in
set_option synthInstance.maxSize 4096 in
set_option synthInstance.maxHeartbeats 400000 in
/-- Facts about the small states that the theorems below cite. -/
theorem test_facts_1 :
    (Shaped testState3)
    ∧ (testState4.estopLatch = true ∧ ∀ c : Chan, (testState4.chan c).state
      = .held ∨ (testState4.chan c).state = .disabled)
    ∧ (Steps testState4)
    ∧ (Shaped testState5)
    ∧ (Settled testState5)
    ∧ (testState5.halts ≠ [])
    ∧ (Steps testState5)
    ∧ (testState3.irq = (testState3.intCause != 0 && testState3.intEnable))
    ∧ (testState6.msiEnabled = true ∧ testOn.msiEnabled = false)
    ∧ (SlotsOk testState7)
    ∧ (Steps testState7)
    ∧ (Shaped testState7)
    ∧ (OutputsNow testState7)
    ∧ (recReq? testBadKind = none)
    ∧ (recReq? (testHalt 1) = some .halt ∧ ReqKind.halt.carriedBy .main = false)
    ∧ (recReq? (testNop.setIfInBounds 20 1) = some .nop ∧ ReqKind.nop.carriedBy .main
      = true ∧ inFields ReqKind.nop.fields 20 = false ∧ blockByte (testNop.setIfInBounds 20 1) 20
      ≠ 0)
    ∧ (∀ i : Fin 64, inFields ReqKind.move.fields i = false → blockByte ((testMove 1).setIfInBounds 1 8) i = 0)
    ∧ (recReq? ((testMove 1).setIfInBounds 1 8) = some .move ∧ ReqKind.move.queuedByChannel
      = true ∧ 8 ≤ recChannel ((testMove 1).setIfInBounds 1 8))
    ∧ (recReq? testNop = some .nop ∧ ¬(ReqKind.nop.queuedByChannel = true ∧ 8 ≤ recChannel testNop))
    ∧ ((testHold .main testBadKind testOn).inReset = false) := by
  decide +kernel

set_option maxRecDepth 4000 in
set_option synthInstance.maxSize 4096 in
set_option synthInstance.maxHeartbeats 400000 in
/-- Facts about the small states that the theorems below cite. -/
theorem test_facts_2 :
    (takeable (testHold .main testBadKind testOn) .main = some testBadKind
      ∧ intakeRefusal .main testBadKind = some .badKind)
    ∧ (Settled (testHold .main testBadKind testOn))
    ∧ (State.reset.part ≠ .running)
    ∧ ((testCtrl testResume).part = .running ∧ (testCtrl testResume).ctrlRing.buffer
      = .holding testResume ∧ (testCtrl testResume).mainRing.credits + (testCtrl testResume).ctrlRing.credits
      < 64)
    ∧ (64 ≤ testState8.mainRing.credits + testState8.ctrlRing.credits)
    ∧ ((testMoveHeld 5).ctrlRing.buffer = .empty)
    ∧ ((testMoveHeld 5).mainRing.buffer = .holding (testMove 5) ∧ mainStall (testMoveHeld 5) (testMove 5) = none)
    ∧ (mainStall testIdle testFence = none ∧ mainStall testState9 testFence ≠ none)
    ∧ (56 ≤ testState10.mainRing.credits)
    ∧ (testIdle.mainRing.credits + testIdle.ctrlRing.credits < 64 ∧ testIdle.mainRing.credits
      < 56 ∧ intakeRefusal .main testBadKind ≠ none)
    ∧ (testOn.mainRing.credits + testOn.ctrlRing.credits < 64 ∧ testOn.mainRing.credits
      < 56 ∧ recReq? (testMove 5) = some .move ∧ intakeRefusal .main (testMove 5)
      = none ∧ ownerRefusal .move testOn (testMove 5) ≠ none)
    ∧ (testState9.mainRing.credits + testState9.ctrlRing.credits < 64 ∧ testState9.mainRing.credits
      < 56 ∧ recReq? testFence = some .fence ∧ intakeRefusal .main testFence
      = none ∧ ownerRefusal .fence testState9 testFence = none ∧ 0 < testState9.mainRing.credits)
    ∧ (testFull.mainRing.credits + testFull.ctrlRing.credits < 64 ∧ testFull.mainRing.credits
      < 56 ∧ recReq? (testMove 5) = some .move ∧ intakeRefusal .main (testMove 5)
      = none ∧ ownerRefusal .move testFull (testMove 5) = none ∧ (testFull.chan (recChan (testMove 5))).queue.length
      = 8)
    ∧ (testFull.mainRing.credits + testFull.ctrlRing.credits < 64 ∧ testFull.mainRing.credits
      < 56 ∧ recReq? (testRdv 1 0) = some .rendezvous ∧ intakeRefusal .main (testRdv 1 0)
      = none ∧ ownerRefusal .rendezvous testFull (testRdv 1 0) = none ∧ hasChan (recMask (testRdv 1 0) 8) 0
      = true ∧ (testFull.chan 0).queue.length = 8)
    ∧ (testNoSlot.mainRing.credits + testNoSlot.ctrlRing.credits < 64 ∧ testNoSlot.mainRing.credits
      < 56 ∧ recReq? (testRdv 1 0) = some .rendezvous ∧ intakeRefusal .main (testRdv 1 0)
      = none ∧ ownerRefusal .rendezvous testNoSlot (testRdv 1 0) = none
      ∧ (∀ c, hasChan (recMask (testRdv 1 0) 8) c = true → (testNoSlot.chan c).queue.length
      < 8) ∧ (∀ i : SlotIx, (testNoSlot.slots[i]).isSome = true))
    ∧ (testSyncing.mainRing.credits + testSyncing.ctrlRing.credits < 64
      ∧ testSyncing.mainRing.credits < 56 ∧ recReq? (testRdv 1 1) = some .rendezvous
      ∧ intakeRefusal .main (testRdv 1 1) = none ∧ ownerRefusal .rendezvous testSyncing (testRdv 1 1)
      = none ∧ (∀ c, hasChan (recMask (testRdv 1 1) 8) c = true → (testSyncing.chan c).queue.length
      < 8) ∧ (∃ i : SlotIx, testSyncing.slots[i] = none) ∧ blockByte (testRdv 1 1) 9
      = 1 ∧ externalOpen testSyncing = true)
    ∧ (testIdle.mainRing.credits + testIdle.ctrlRing.credits < 64 ∧ testIdle.mainRing.credits
      < 56 ∧ recReq? (testRdv 1 1) = some .rendezvous ∧ intakeRefusal .main (testRdv 1 1)
      = none ∧ ownerRefusal .rendezvous testIdle (testRdv 1 1) = none ∧ (∃ i : SlotIx, testIdle.slots[i]
      = none) ∧ ¬(blockByte (testRdv 1 1) 9 = 1 ∧ externalOpen testIdle
      = true))
    ∧ (testIdle.mainRing.credits + testIdle.ctrlRing.credits < 64 ∧ testIdle.mainRing.credits
      < 56 ∧ recReq? (testMove 5) = some .move ∧ intakeRefusal .main (testMove 5)
      = none ∧ ownerRefusal .move testIdle (testMove 5) = none ∧ (testIdle.chan (recChan (testMove 5))).queue.length
      < 8)
    ∧ (testIdle.mainRing.credits + testIdle.ctrlRing.credits < 64 ∧ testIdle.mainRing.credits
      < 56 ∧ recReq? testFence = some .fence ∧ intakeRefusal .main testFence
      = none ∧ ownerRefusal .fence testIdle testFence = none ∧ testIdle.mainRing.credits
      = 0)
    ∧ (testIdle.mainRing.credits + testIdle.ctrlRing.credits < 64 ∧ testIdle.mainRing.credits
      < 56 ∧ recReq? testNop = some .nop ∧ intakeRefusal .main testNop = none
      ∧ ownerRefusal .nop testIdle testNop = none) := by
  decide +kernel

set_option maxRecDepth 4000 in
set_option synthInstance.maxSize 4096 in
set_option synthInstance.maxHeartbeats 400000 in
/-- Facts about the small states that the theorems below cite. -/
theorem test_facts_3 :
    ((testHold .main testFence testState9).inReset = false)
    ∧ ((testHold .main testFence testState9).part = .running ∧ ctrlTakeable (testHold .main testFence testState9)
      = none ∧ (testHold .main testFence testState9).mainRing.buffer = .holding testFence
      ∧ mainStall (testHold .main testFence testState9) testFence = some .fence)
    ∧ (Settled (testHold .main testFence testState9))
    ∧ (TakenNow (testMain testFence) .main .fence testFence)
    ∧ (Settled (testMain testFence))
    ∧ (TakenNow (testMain testNop) .main .nop testNop)
    ∧ (Settled (testMain testNop))
    ∧ (TakenNow (testCtrl testNop) .ctrl .nop testNop)
    ∧ (Settled (testCtrl testNop))
    ∧ (creditFor testState10 .main = false)
    ∧ (Settled testState10)
    ∧ (TakenNow (testMain (testProfile 100)) .main .setProfile (testProfile 100))
    ∧ (Settled (testMain (testProfile 100)))
    ∧ ((blockByte (testProfile 100) 8).toNat ≤ 15 ∧ 1 ≤ blockField (testProfile 100) 12 4
      ∧ blockField (testProfile 100) 12 4 ≤ blockField (testProfile 100) 16 4
      ∧ blockField (testProfile 100) 16 4 ≤ 400000 ∧ 1 ≤ blockField (testProfile 100) 20 3
      ∧ blockField (testProfile 100) 20 3 ≤ 16777215 ∧ 1 ≤ blockField (testProfile 100) 24 3
      ∧ blockField (testProfile 100) 24 3 ≤ 16777215)
    ∧ ((3 : ProfIx).val = (blockByte (testProfile 100) 8).toNat)
    ∧ (TakenNow (testMain (testProfile 0)) .main .setProfile (testProfile 0))
    ∧ (¬((blockByte (testProfile 0) 8).toNat ≤ 15 ∧ 1 ≤ blockField (testProfile 0) 12 4
      ∧ blockField (testProfile 0) 12 4 ≤ blockField (testProfile 0) 16 4
      ∧ blockField (testProfile 0) 16 4 ≤ 400000 ∧ 1 ≤ blockField (testProfile 0) 20 3
      ∧ blockField (testProfile 0) 20 3 ≤ 16777215 ∧ 1 ≤ blockField (testProfile 0) 24 3
      ∧ blockField (testProfile 0) 24 3 ≤ 16777215))
    ∧ ((0 : ProfIx).val = (blockByte testChain 10).toNat ∧ testIdle.profiles[(0 : ProfIx)]
      = some { vs := 100, vc := 1000, a := 5000, b := 5000 } ∧ moveMode? (blockByte testChain 8)
      = some .relative ∧ 1000 ≤ (testIdle.chan (recChan testChain)).cfg.maxRate)
    ∧ (blockByte testChain 9 = 1 ∧ 1 ≤ blockField testChain 16 4 ∧ blockField testChain 16 4 ≤ 400000)
    ∧ ((0 : ProfIx).val = (blockByte (testMove 5) 10).toNat ∧ blockByte (testMove 5) 9
      = 0 ∧ blockField (testMove 5) 16 4 = 0) := by
  decide +kernel

set_option maxRecDepth 4000 in
set_option synthInstance.maxSize 4096 in
set_option synthInstance.maxHeartbeats 400000 in
/-- Facts about the small states that the theorems below cite. -/
theorem test_facts_4 :
    (moveMode? (blockByte (testBlock [(8, 1, 3)]) 8) = none)
    ∧ (15 < (blockByte (testBlock [(10, 1, 16)]) 10).toNat)
    ∧ (testIdle.profiles[(3 : ProfIx)] = none)
    ∧ (((testIdle.modChan 0 fun ch => { ch with cfg := { ch.cfg with maxRate := 999 } }).chan 0).cfg.maxRate < 1000)
    ∧ (blockByte (testBlock [(9, 1, 2)]) 9 ≠ 0 ∧ blockByte (testBlock [(9, 1, 2)]) 9 ≠ 1)
    ∧ (¬(1 ≤ blockField (testBlock [(9, 1, 1)]) 16 4 ∧ blockField (testBlock [(9, 1, 1)]) 16 4 ≤ 400000))
    ∧ (blockByte (testBlock [(16, 4, 1)]) 9 = 0 ∧ blockField (testBlock [(16, 4, 1)]) 16 4 ≠ 0)
    ∧ (blockField (testBlock []) 8 3 = 0 ∧ blockField testDwell 8 3 ≠ 0)
    ∧ (recMask (testBlock [(8, 1, 1), (9, 1, 1)]) 8 &&& recMask (testBlock [(8, 1, 1), (9, 1, 1)]) 9
      ≠ 0 ∧ recMask testMark 8 &&& recMask testMark 9 = 0)
    ∧ (ReqKind.dwell ∈ [ReqKind.move, .dwell, .setPosition, .mark] ∧ ReqKind.mark ∈ [ReqKind.move, .dwell, .setPosition, .mark])
    ∧ (TakenNow (testMain ((testMove 5).setIfInBounds 8 3)) .main .move ((testMove 5).setIfInBounds 8 3))
    ∧ (Settled (testMain ((testMove 5).setIfInBounds 8 3)))
    ∧ (recEntry? .move (testMain ((testMove 5).setIfInBounds 8 3)) ((testMove 5).setIfInBounds 8 3) = none)
    ∧ (TakenNow (testHold .main testMark testOn) .main .mark testMark)
    ∧ (recEntry? .mark (testHold .main testMark testOn) testMark ≠ none
      ∧ ((testHold .main testMark testOn).chan (recChan testMark)).state
      = .disabled)
    ∧ (TakenNow (testHold .main testDwell testHeld) .main .dwell testDwell)
    ∧ (recEntry? .dwell (testHold .main testDwell testHeld) testDwell ≠ none
      ∧ ((testHold .main testDwell testHeld).chan (recChan testDwell)).state
      = .held)
    ∧ (TakenNow (testHold .main testDwell testStopping) .main .dwell testDwell)
    ∧ (Settled (testHold .main testDwell testStopping))
    ∧ (recEntry? .dwell (testHold .main testDwell testStopping) testDwell
      ≠ none ∧ ((testHold .main testDwell testStopping).chan (recChan testDwell)).state
      = .stopping) := by
  decide +kernel

set_option maxRecDepth 4000 in
set_option synthInstance.maxSize 4096 in
set_option synthInstance.maxHeartbeats 400000 in
/-- Facts about the small states that the theorems below cite. -/
theorem test_facts_5 :
    (ReqKind.dwell ∈ [ReqKind.move, .dwell, .setPosition, .mark])
    ∧ (TakenNow (testHold .main testDwell testRunning) .main .dwell testDwell)
    ∧ (Settled (testHold .main testDwell testRunning))
    ∧ (recEntry? .dwell (testHold .main testDwell testRunning) testDwell
      = some (.dwell 9 10) ∧ ((testHold .main testDwell testRunning).chan (recChan testDwell)).state ∈ [ChanState.running, .dwelling, .waiting])
    ∧ (TakenNow (testMoveHeld 4294967294) .main .move (testMove 4294967294))
    ∧ (Settled (testMoveHeld 4294967294))
    ∧ (Shaped (testMoveHeld 4294967294))
    ∧ (recEntry? .move (testMoveHeld 4294967294) (testMove 4294967294) = some (.move (testEntry 4294967294))
      ∧ recChan (testMove 4294967294) = 0 ∧ ((testMoveHeld 4294967294).chan 0).state
      = .idle)
    ∧ ((resolveMove (testEntry 4294967294) ((testMoveHeld 4294967294).position 0).toInt).steps
      ≠ 0 ∧ softLimitOk ((testMoveHeld 4294967294).chan 0).cfg (resolveMove (testEntry 4294967294) ((testMoveHeld 4294967294).position 0).toInt).endPos
      = true ∧ limitBlocks ((testMoveHeld 4294967294).chan 0) (resolveMove (testEntry 4294967294) ((testMoveHeld 4294967294).position 0).toInt).positive
      = false)
    ∧ (((testMoveHeld 4294967294).chan 0).pgn.dirHigh ≠ dirLevelFor ((testMoveHeld 4294967294).chan 0).cfg.dirPolarity (resolveMove (testEntry 4294967294) ((testMoveHeld 4294967294).position 0).toInt).positive)
    ∧ (TakenNow (testMoveHeld 100) .main .move (testMove 100))
    ∧ (Settled (testMoveHeld 100))
    ∧ (Shaped (testMoveHeld 100))
    ∧ (recEntry? .move (testMoveHeld 100) (testMove 100) = some (.move (testEntry 100))
      ∧ recChan (testMove 100) = 0 ∧ ((testMoveHeld 100).chan 0).state = .idle)
    ∧ ((resolveMove (testEntry 100) ((testMoveHeld 100).position 0).toInt).steps
      ≠ 0 ∧ softLimitOk ((testMoveHeld 100).chan 0).cfg (resolveMove (testEntry 100) ((testMoveHeld 100).position 0).toInt).endPos
      = true ∧ limitBlocks ((testMoveHeld 100).chan 0) (resolveMove (testEntry 100) ((testMoveHeld 100).position 0).toInt).positive
      = false)
    ∧ (((testMoveHeld 100).chan 0).pgn.dirHigh = dirLevelFor ((testMoveHeld 100).chan 0).cfg.dirPolarity (resolveMove (testEntry 100) ((testMoveHeld 100).position 0).toInt).positive)
    ∧ (NoWatches (testMoveHeld 100))
    ∧ (holdUntil ((testMoveHeld 100).chan 0) ≤ (testMoveHeld 100).now)
    ∧ (TakenNow ((testMoveHeld 100).modChan 0 fun ch => { ch with pgn := { ch.pgn with stopHold := some 0 } }) .main .move (testMove 100))
    ∧ (Settled ((testMoveHeld 100).modChan 0 fun ch => { ch with pgn := { ch.pgn with stopHold := some 0 } })) := by
  decide +kernel

set_option maxRecDepth 4000 in
set_option synthInstance.maxSize 4096 in
set_option synthInstance.maxHeartbeats 400000 in
/-- Facts about the small states that the theorems below cite. -/
theorem test_facts_6 :
    (Shaped ((testMoveHeld 100).modChan 0 fun ch => { ch with pgn := { ch.pgn with stopHold := some 0 } }))
    ∧ (recEntry? .move ((testMoveHeld 100).modChan 0 fun ch => { ch with pgn := { ch.pgn with stopHold := some 0 } }) (testMove 100)
      = some (.move (testEntry 100)) ∧ recChan (testMove 100) = 0 ∧ (((testMoveHeld 100).modChan 0 fun ch => { ch with pgn := { ch.pgn with stopHold := some 0 } }).chan 0).state
      = .idle)
    ∧ ((resolveMove (testEntry 100) (((testMoveHeld 100).modChan 0 fun ch => { ch with pgn := { ch.pgn with stopHold := some 0 } }).position 0).toInt).steps
      ≠ 0 ∧ softLimitOk (((testMoveHeld 100).modChan 0 fun ch => { ch with pgn := { ch.pgn with stopHold := some 0 } }).chan 0).cfg (resolveMove (testEntry 100) (((testMoveHeld 100).modChan 0 fun ch => { ch with pgn := { ch.pgn with stopHold := some 0 } }).position 0).toInt).endPos
      = true ∧ limitBlocks (((testMoveHeld 100).modChan 0 fun ch => { ch with pgn := { ch.pgn with stopHold := some 0 } }).chan 0) (resolveMove (testEntry 100) (((testMoveHeld 100).modChan 0 fun ch => { ch with pgn := { ch.pgn with stopHold := some 0 } }).position 0).toInt).positive
      = false)
    ∧ ((((testMoveHeld 100).modChan 0 fun ch => { ch with pgn := { ch.pgn with stopHold := some 0 } }).chan 0).pgn.dirHigh
      = dirLevelFor (((testMoveHeld 100).modChan 0 fun ch => { ch with pgn := { ch.pgn with stopHold := some 0 } }).chan 0).cfg.dirPolarity (resolveMove (testEntry 100) (((testMoveHeld 100).modChan 0 fun ch => { ch with pgn := { ch.pgn with stopHold := some 0 } }).position 0).toInt).positive)
    ∧ (NoWatches ((testMoveHeld 100).modChan 0 fun ch => { ch with pgn := { ch.pgn with stopHold := some 0 } }))
    ∧ (((testMoveHeld 100).modChan 0 fun ch => { ch with pgn := { ch.pgn with stopHold := some 0 } }).now
      < holdUntil (((testMoveHeld 100).modChan 0 fun ch => { ch with pgn := { ch.pgn with stopHold := some 0 } }).chan 0))
    ∧ (TakenNow (testMoveHeld 0) .main .move (testMove 0))
    ∧ (Settled (testMoveHeld 0))
    ∧ (Shaped (testMoveHeld 0))
    ∧ (recEntry? .move (testMoveHeld 0) (testMove 0) = some (.move (testEntry 0))
      ∧ recChan (testMove 0) = 0 ∧ ((testMoveHeld 0).chan 0).state = .idle)
    ∧ ((resolveMove (testEntry 0) ((testMoveHeld 0).position 0).toInt).steps = 0)
    ∧ (TakenNow ((testMoveHeld 100).modChan 0 fun ch => { ch with cfg := { ch.cfg with softMax := 99 } }) .main .move (testMove 100))
    ∧ (Settled ((testMoveHeld 100).modChan 0 fun ch => { ch with cfg := { ch.cfg with softMax := 99 } }))
    ∧ (Shaped ((testMoveHeld 100).modChan 0 fun ch => { ch with cfg := { ch.cfg with softMax := 99 } }))
    ∧ (recEntry? .move ((testMoveHeld 100).modChan 0 fun ch => { ch with cfg := { ch.cfg with softMax := 99 } }) (testMove 100)
      = some (.move (testEntry 100)) ∧ recChan (testMove 100) = 0 ∧ (((testMoveHeld 100).modChan 0 fun ch => { ch with cfg := { ch.cfg with softMax := 99 } }).chan 0).state
      = .idle)
    ∧ ((resolveMove (testEntry 100) (((testMoveHeld 100).modChan 0 fun ch => { ch with cfg := { ch.cfg with softMax := 99 } }).position 0).toInt).steps
      ≠ 0 ∧ softLimitOk (((testMoveHeld 100).modChan 0 fun ch => { ch with cfg := { ch.cfg with softMax := 99 } }).chan 0).cfg (resolveMove (testEntry 100) (((testMoveHeld 100).modChan 0 fun ch => { ch with cfg := { ch.cfg with softMax := 99 } }).position 0).toInt).endPos
      = false)
    ∧ (TakenNow ((testMoveHeld 100).modChan 0 fun ch => { ch with limp := { ch.limp with qualified := true } }) .main .move (testMove 100))
    ∧ (Settled ((testMoveHeld 100).modChan 0 fun ch => { ch with limp := { ch.limp with qualified := true } }))
    ∧ (Shaped ((testMoveHeld 100).modChan 0 fun ch => { ch with limp := { ch.limp with qualified := true } }))
    ∧ (recEntry? .move ((testMoveHeld 100).modChan 0 fun ch => { ch with limp := { ch.limp with qualified := true } }) (testMove 100)
      = some (.move (testEntry 100)) ∧ recChan (testMove 100) = 0 ∧ (((testMoveHeld 100).modChan 0 fun ch => { ch with limp := { ch.limp with qualified := true } }).chan 0).state
      = .idle) := by
  decide +kernel

set_option maxRecDepth 4000 in
set_option synthInstance.maxSize 4096 in
set_option synthInstance.maxHeartbeats 400000 in
/-- Facts about the small states that the theorems below cite. -/
theorem test_facts_7 :
    ((resolveMove (testEntry 100) (((testMoveHeld 100).modChan 0 fun ch => { ch with limp := { ch.limp with qualified := true } }).position 0).toInt).steps
      ≠ 0 ∧ softLimitOk (((testMoveHeld 100).modChan 0 fun ch => { ch with limp := { ch.limp with qualified := true } }).chan 0).cfg (resolveMove (testEntry 100) (((testMoveHeld 100).modChan 0 fun ch => { ch with limp := { ch.limp with qualified := true } }).position 0).toInt).endPos
      = true ∧ limitBlocks (((testMoveHeld 100).modChan 0 fun ch => { ch with limp := { ch.limp with qualified := true } }).chan 0) (resolveMove (testEntry 100) (((testMoveHeld 100).modChan 0 fun ch => { ch with limp := { ch.limp with qualified := true } }).position 0).toInt).positive
      = true)
    ∧ (TakenNow (testMain testDwell) .main .dwell testDwell)
    ∧ (Settled (testMain testDwell))
    ∧ (Shaped (testMain testDwell))
    ∧ (((testMain testDwell).chan (recChan testDwell)).state = .idle ∧ blockField testDwell 8 3 ≠ 0)
    ∧ (TakenNow (testMain testSetPosition) .main .setPosition testSetPosition)
    ∧ (Settled (testMain testSetPosition))
    ∧ (Shaped (testMain testSetPosition))
    ∧ (((testMain testSetPosition).chan (recChan testSetPosition)).state = .idle)
    ∧ (TakenNow (testMain testMark) .main .mark testMark)
    ∧ (Settled (testMain testMark))
    ∧ (Shaped (testMain testMark))
    ∧ (((testMain testMark).chan (recChan testMark)).state = .idle ∧ recMask testMark 8 &&& recMask testMark 9 = 0)
    ∧ ((resolveMove (testEntry 0) (testIdle.position 0).toInt).steps = 0)
    ∧ ((resolveMove (testEntry 100) (testIdle.position 0).toInt).steps ≠ 0
      ∧ softLimitOk (testIdle.chan 0).cfg (resolveMove (testEntry 100) (testIdle.position 0).toInt).endPos
      = true ∧ limitBlocks (testIdle.chan 0) (resolveMove (testEntry 100) (testIdle.position 0).toInt).positive
      = false)
    ∧ ((resolveMove (testEntry 100) ((testIdle.modChan 0 fun ch => { ch with cfg := { ch.cfg with softMax := 99 } }).position 0).toInt).steps
      ≠ 0 ∧ softLimitOk ((testIdle.modChan 0 fun ch => { ch with cfg := { ch.cfg with softMax := 99 } }).chan 0).cfg (resolveMove (testEntry 100) ((testIdle.modChan 0 fun ch => { ch with cfg := { ch.cfg with softMax := 99 } }).position 0).toInt).endPos
      = false)
    ∧ ((resolveMove (testEntry 100) ((testIdle.modChan 0 fun ch => { ch with limp := testPin false true }).position 0).toInt).steps
      ≠ 0 ∧ softLimitOk ((testIdle.modChan 0 fun ch => { ch with limp := testPin false true }).chan 0).cfg (resolveMove (testEntry 100) ((testIdle.modChan 0 fun ch => { ch with limp := testPin false true }).position 0).toInt).endPos
      = true ∧ limitBlocks ((testIdle.modChan 0 fun ch => { ch with limp := testPin false true }).chan 0) (resolveMove (testEntry 100) ((testIdle.modChan 0 fun ch => { ch with limp := testPin false true }).position 0).toInt).positive
      = true)
    ∧ (TakenNow (testMain (testRdv 0 0)) .main .rendezvous (testRdv 0 0))
    ∧ (Settled (testMain (testRdv 0 0)))
    ∧ (¬(recMask (testRdv 0 0) 8 ≠ 0 ∧ (blockByte (testRdv 0 0) 9 = 0 ∨ blockByte (testRdv 0 0) 9
      = 1) ∧ blockField (testRdv 0 0) 12 4 ≤ 65535)) := by
  decide +kernel

set_option maxRecDepth 4000 in
set_option synthInstance.maxSize 4096 in
set_option synthInstance.maxHeartbeats 400000 in
/-- Facts about the small states that the theorems below cite. -/
theorem test_facts_8 :
    (TakenNow (testMain (testRdv 3 0)) .main .rendezvous (testRdv 3 0))
    ∧ (recMask (testRdv 3 0) 8 ≠ 0 ∧ (blockByte (testRdv 3 0) 9 = 0 ∨ blockByte (testRdv 3 0) 9
      = 1) ∧ blockField (testRdv 3 0) 12 4 ≤ 65535)
    ∧ ((maskOf fun c => hasChan (recMask (testRdv 3 0) 8) c && !((testMain (testRdv 3 0)).chan c).isOpen) ≠ 0)
    ∧ (∃ c, hasChan (recMask (testRdv 3 0) 8) c = true ∧ ((testMain (testRdv 3 0)).chan c).state = .disabled)
    ∧ (TakenNow (testHold .main (testRdv 1 0) testHeld) .main .rendezvous (testRdv 1 0))
    ∧ (Settled (testHold .main (testRdv 1 0) testHeld))
    ∧ ((maskOf fun c => hasChan (recMask (testRdv 1 0) 8) c && !((testHold .main (testRdv 1 0) testHeld).chan c).isOpen)
      ≠ 0)
    ∧ (∀ c, hasChan (recMask (testRdv 1 0) 8) c = true → ((testHold .main (testRdv 1 0) testHeld).chan c).state
      ≠ .disabled)
    ∧ (TakenNow (testHold .main (testRdv 1 1) testRunning) .main .rendezvous (testRdv 1 1))
    ∧ (Settled (testHold .main (testRdv 1 1) testRunning))
    ∧ (Shaped (testHold .main (testRdv 1 1) testRunning))
    ∧ (rendezvousFieldsOk (testRdv 1 1) = true)
    ∧ (∀ c, hasChan (recMask (testRdv 1 1) 8) c = true → ((testHold .main (testRdv 1 1) testRunning).chan c).state ∈ [ChanState.idle, .running, .dwelling, .waiting])
    ∧ (∃ c, hasChan (recMask (testRdv 1 1) 8) c = true ∧ ((testHold .main (testRdv 1 1) testRunning).chan c).state
      ≠ .idle)
    ∧ ((testHold .main (testRdv 1 1) testRunning).slots[(0 : SlotIx)] = none
      ∧ ∀ j : SlotIx, j < 0 → ((testHold .main (testRdv 1 1) testRunning).slots[j]).isSome
      = true)
    ∧ (TakenNow (testHold .main (testRdv 3 0) testMixed) .main .rendezvous (testRdv 3 0))
    ∧ (Settled (testHold .main (testRdv 3 0) testMixed))
    ∧ (Shaped (testHold .main (testRdv 3 0) testMixed))
    ∧ (rendezvousFieldsOk (testRdv 3 0) = true)
    ∧ (∀ c, hasChan (recMask (testRdv 3 0) 8) c = true → ((testHold .main (testRdv 3 0) testMixed).chan c).state ∈ [ChanState.idle, .running, .dwelling, .waiting]) := by
  decide +kernel

set_option maxRecDepth 4000 in
set_option synthInstance.maxSize 4096 in
set_option synthInstance.maxHeartbeats 400000 in
/-- Facts about the small states that the theorems below cite. -/
theorem test_facts_9 :
    (∃ c, hasChan (recMask (testRdv 3 0) 8) c = true ∧ ((testHold .main (testRdv 3 0) testMixed).chan c).state
      ≠ .idle)
    ∧ ((testHold .main (testRdv 3 0) testMixed).slots[(0 : SlotIx)] = none
      ∧ ∀ j : SlotIx, j < 0 → ((testHold .main (testRdv 3 0) testMixed).slots[j]).isSome
      = true)
    ∧ (TakenNow (testHold .main (testRdv 3 1) testMixed) .main .rendezvous (testRdv 3 1))
    ∧ (Settled (testHold .main (testRdv 3 1) testMixed))
    ∧ (Shaped (testHold .main (testRdv 3 1) testMixed))
    ∧ (rendezvousFieldsOk (testRdv 3 1) = true)
    ∧ (∀ c, hasChan (recMask (testRdv 3 1) 8) c = true → ((testHold .main (testRdv 3 1) testMixed).chan c).state ∈ [ChanState.idle, .running, .dwelling, .waiting])
    ∧ (∃ c, hasChan (recMask (testRdv 3 1) 8) c = true ∧ ((testHold .main (testRdv 3 1) testMixed).chan c).state
      ≠ .idle)
    ∧ ((testHold .main (testRdv 3 1) testMixed).slots[(0 : SlotIx)] = none
      ∧ ∀ j : SlotIx, j < 0 → ((testHold .main (testRdv 3 1) testMixed).slots[j]).isSome
      = true)
    ∧ (testIdle.slots[(0 : SlotIx)] = none)
    ∧ (∃ sl ∈ testGathering.slots[(0 : SlotIx)], hasChan sl.members 2 = false ∧ hasChan sl.arrived 0 = true)
    ∧ (∃ sl ∈ testOpened.slots[(0 : SlotIx)], sl.state = .opened ∧ sl.timeout
      = 5 ∧ hasChan sl.members 0 = true ∧ hasChan sl.arrived 0 = false ∧ sl.arrived ||| chanBit 0
      ≠ sl.members)
    ∧ (∃ sl ∈ testUntimed.slots[(0 : SlotIx)], sl.state = .opened ∧ sl.timeout
      = 0 ∧ hasChan sl.members 0 = true ∧ hasChan sl.arrived 0 = false ∧ sl.arrived ||| chanBit 0
      ≠ sl.members)
    ∧ (∃ sl ∈ testThree.slots[(0 : SlotIx)], sl.state = .gathering ∧ hasChan sl.members 1
      = true ∧ hasChan sl.arrived 1 = false ∧ sl.arrived ||| chanBit 1 ≠ sl.members)
    ∧ (∃ sl ∈ testGathering.slots[(0 : SlotIx)], hasChan sl.members 1 = true
      ∧ hasChan sl.arrived 1 = false ∧ sl.arrived ||| chanBit 1 = sl.members
      ∧ sl.external = false)
    ∧ (∃ sl ∈ testGatheringX.slots[(0 : SlotIx)], hasChan sl.members 1 = true
      ∧ hasChan sl.arrived 1 = false ∧ sl.arrived ||| chanBit 1 = sl.members
      ∧ sl.external = true)
    ∧ ((testAt 900 (testOpened.modChan 0 fun ch => { ch with pgn := { ch.pgn with remaining := 0, schedule := none, pulseEnd := none, lastEnd := some 900 } })).inReset
      = false)
    ∧ (Settled (testAt 900 (testOpened.modChan 0 fun ch => { ch with pgn := { ch.pgn with remaining := 0, schedule := none, pulseEnd := none, lastEnd := some 900 } })))
    ∧ (∃ sl ∈ (testAt 900 (testOpened.modChan 0 fun ch => { ch with pgn := { ch.pgn with remaining := 0, schedule := none, pulseEnd := none, lastEnd := some 900 } })).slots[(0 : SlotIx)], hasChan sl.members 0
      = true ∧ hasChan sl.arrived 0 = false ∧ sl.arrived ||| chanBit 0 ≠ sl.members)
    ∧ (((testAt 900 (testOpened.modChan 0 fun ch => { ch with pgn := { ch.pgn with remaining := 0, schedule := none, pulseEnd := none, lastEnd := some 900 } })).chan 0).state
      = .running ∧ ((testAt 900 (testOpened.modChan 0 fun ch => { ch with pgn := { ch.pgn with remaining := 0, schedule := none, pulseEnd := none, lastEnd := some 900 } })).chan 0).queue
      = .move (testEntry 100) :: .marker 0 :: [] ∧ ((testAt 900 (testOpened.modChan 0 fun ch => { ch with pgn := { ch.pgn with remaining := 0, schedule := none, pulseEnd := none, lastEnd := some 900 } })).chan 0).headBound
      = false ∧ ((testAt 900 (testOpened.modChan 0 fun ch => { ch with pgn := { ch.pgn with remaining := 0, schedule := none, pulseEnd := none, lastEnd := some 900 } })).chan 0).pgn.remaining
      = 0 ∧ ((testAt 900 (testOpened.modChan 0 fun ch => { ch with pgn := { ch.pgn with remaining := 0, schedule := none, pulseEnd := none, lastEnd := some 900 } })).chan 0).pgn.lastEnd
      = some 900 ∧ 900 ≤ (testAt 900 (testOpened.modChan 0 fun ch => { ch with pgn := { ch.pgn with remaining := 0, schedule := none, pulseEnd := none, lastEnd := some 900 } })).now) := by
  decide +kernel

set_option maxRecDepth 4000 in
set_option synthInstance.maxSize 4096 in
set_option synthInstance.maxHeartbeats 400000 in
/-- Facts about the small states that the theorems below cite. -/
theorem test_facts_10 :
    ((testAt 400 (testAfter (.rendezvous .main) (testHold .main (testRdv 3 0) (testDwelling.setChan 1 (testRunning.chan 0))))).inReset
      = false)
    ∧ (Settled (testAt 400 (testAfter (.rendezvous .main) (testHold .main (testRdv 3 0) (testDwelling.setChan 1 (testRunning.chan 0))))))
    ∧ (∃ sl ∈ (testAt 400 (testAfter (.rendezvous .main) (testHold .main (testRdv 3 0) (testDwelling.setChan 1 (testRunning.chan 0))))).slots[(0 : SlotIx)], hasChan sl.members 0
      = true ∧ hasChan sl.arrived 0 = false ∧ sl.arrived ||| chanBit 0 ≠ sl.members)
    ∧ (((testAt 400 (testAfter (.rendezvous .main) (testHold .main (testRdv 3 0) (testDwelling.setChan 1 (testRunning.chan 0))))).chan 0).state
      = .dwelling ∧ ((testAt 400 (testAfter (.rendezvous .main) (testHold .main (testRdv 3 0) (testDwelling.setChan 1 (testRunning.chan 0))))).chan 0).queue
      = .dwell 9 10 :: .marker 0 :: [] ∧ ((testAt 400 (testAfter (.rendezvous .main) (testHold .main (testRdv 3 0) (testDwelling.setChan 1 (testRunning.chan 0))))).chan 0).dwellStart
      = some 0 ∧ 0 + 40 * 10 ≤ (testAt 400 (testAfter (.rendezvous .main) (testHold .main (testRdv 3 0) (testDwelling.setChan 1 (testRunning.chan 0))))).now)
    ∧ (TakenNow (testHold .main (testRdv 3 0) testTwo) .main .rendezvous (testRdv 3 0))
    ∧ (Settled (testHold .main (testRdv 3 0) testTwo))
    ∧ (Shaped (testHold .main (testRdv 3 0) testTwo))
    ∧ (rendezvousFieldsOk (testRdv 3 0) = true ∧ blockByte (testRdv 3 0) 9 = 0)
    ∧ (∀ c, hasChan (recMask (testRdv 3 0) 8) c = true → ((testHold .main (testRdv 3 0) testTwo).chan c).state
      = .idle)
    ∧ ((testHold .main (testRdv 3 0) testTwo).slots[(0 : SlotIx)] = none
      ∧ (0 : SlotIx) ∉ (testHold .main (testRdv 3 0) testTwo).openList ∧ ∀ j : SlotIx, j
      < 0 → ((testHold .main (testRdv 3 0) testTwo).slots[j]).isSome = true)
    ∧ (TakenNow (testHold .main (testRdv 3 1) testTwo) .main .rendezvous (testRdv 3 1))
    ∧ (Settled (testHold .main (testRdv 3 1) testTwo))
    ∧ (Shaped (testHold .main (testRdv 3 1) testTwo))
    ∧ (rendezvousFieldsOk (testRdv 3 1) = true ∧ blockByte (testRdv 3 1) 9 = 1)
    ∧ (∀ c, hasChan (recMask (testRdv 3 1) 8) c = true → ((testHold .main (testRdv 3 1) testTwo).chan c).state
      = .idle)
    ∧ ((testHold .main (testRdv 3 1) testTwo).slots[(0 : SlotIx)] = none
      ∧ (0 : SlotIx) ∉ (testHold .main (testRdv 3 1) testTwo).openList ∧ ∀ j : SlotIx, j
      < 0 → ((testHold .main (testRdv 3 1) testTwo).slots[j]).isSome = true)
    ∧ (StopMode.abrupt ≠ .none ∧ StopMode.decel ≠ .none)
    ∧ ((testOn.chan 0).shaped = true ∧ (testOn.chan 0).state = .disabled)
    ∧ ((testHeld.chan 0).shaped = true ∧ (testHeld.chan 0).state = .held)
    ∧ ((testIdle.chan 0).shaped = true ∧ (testIdle.chan 0).state = .idle) := by
  decide +kernel

set_option maxRecDepth 4000 in
set_option synthInstance.maxSize 4096 in
set_option synthInstance.maxHeartbeats 400000 in
/-- Facts about the small states that the theorems below cite. -/
theorem test_facts_11 :
    ((testDwelling.chan 0).shaped = true ∧ (testDwelling.chan 0).state = .dwelling)
    ∧ ((testDwelling.chan 0).queue = .dwell 9 10 :: [] ∧ (testDwelling.chan 0).dwellStart = some 0)
    ∧ ((testWaiting.chan 0).shaped = true ∧ (testWaiting.chan 0).state = .waiting)
    ∧ ((testWaiting.chan 0).queue = .marker 0 :: [])
    ∧ ((testFull.chan 0).shaped = true ∧ (testFull.chan 0).state = .running)
    ∧ ((testFull.chan 0).queue = .move (testEntry 100) :: List.replicate 7 (.dwell 1 1)
      ∧ (testFull.chan 0).pgn.pulseEnd ≠ none ∧ (testFull.chan 0).pgn.emitted
      ≠ 0 ∧ (testFull.chan 0).binding = .notChained ∧ (testFull.chan 0).pgn.rateSq
      ≤ (testEntry 100).profile.vs ^ 2)
    ∧ ((testStepNext.chan 0).shaped = true ∧ (testStepNext.chan 0).state = .running)
    ∧ ((testStepNext.chan 0).queue = .move (testEntry 100) :: [] ∧ (testStepNext.chan 0).pgn.pulseEnd = none)
    ∧ ((testSettling.chan 0).shaped = true ∧ (testSettling.chan 0).state = .running)
    ∧ ((testSettling.chan 0).queue = .move (testEntry 4294967294) :: [] ∧ (testSettling.chan 0).pgn.emitted = 0)
    ∧ ((testSecond.chan 0).shaped = true ∧ (testSecond.chan 0).state = .running)
    ∧ ((testSecond.chan 0).queue = .move (testEntry 100) :: [] ∧ (testSecond.chan 0).pgn.emitted
      ≠ 0 ∧ ¬((testSecond.chan 0).pgn.remaining = 0 ∨ (testSecond.chan 0).pgn.rateSq
      ≤ (testEntry 100).profile.vs ^ 2))
    ∧ ((testPending.chan 0).shaped = true ∧ (testPending.chan 0).state = .running)
    ∧ ((testPending.chan 0).queue = .move testChainEntry :: [] ∧ (testPending.chan 0).pgn.emitted
      ≠ 0 ∧ (testPending.chan 0).binding ≠ .notChained ∧ (testPending.chan 0).binding
      ≠ .unbound)
    ∧ ((testStopping.chan 0).shaped = true ∧ (testStopping.chan 0).state = .stopping)
    ∧ ((testStopping.chan 0).queue = .move (testEntry 100) :: [])
    ∧ (TakenNow (testHold .ctrl (testHalt 0) testRunning) .ctrl .halt (testHalt 0))
    ∧ (Settled (testHold .ctrl (testHalt 0) testRunning))
    ∧ (Shaped (testHold .ctrl (testHalt 0) testRunning))
    ∧ (haltMode? (blockByte (testHalt 0) 9) = none) := by
  decide +kernel

set_option maxRecDepth 4000 in
set_option synthInstance.maxSize 4096 in
set_option synthInstance.maxHeartbeats 400000 in
/-- Facts about the small states that the theorems below cite. -/
theorem test_facts_12 :
    (TakenNow (testHold .ctrl (testHalt 1) testRunning) .ctrl .halt (testHalt 1))
    ∧ (Settled (testHold .ctrl (testHalt 1) testRunning))
    ∧ (Shaped (testHold .ctrl (testHalt 1) testRunning))
    ∧ (haltMode? (blockByte (testHalt 1) 9) = some .decel)
    ∧ (TakenNow (testHold .ctrl (testHalt 2) testRunning) .ctrl .halt (testHalt 2))
    ∧ (Settled (testHold .ctrl (testHalt 2) testRunning))
    ∧ (Shaped (testHold .ctrl (testHalt 2) testRunning))
    ∧ (haltMode? (blockByte (testHalt 2) 9) = some .abrupt)
    ∧ (TakenNow (testCtrl (testHalt 1)) .ctrl .halt (testHalt 1))
    ∧ (∀ c, hasChan (recMask (testHalt 1) 8) c = true → restedHalted ((testAfter (.halt .ctrl) (testCtrl (testHalt 1))).chan c)
      = true)
    ∧ (∃ c, hasChan (recMask (testHalt 2) 8) c = true ∧ restedHalted (testPulseHeld.chan c) = false)
    ∧ (TakenNow (testHold .ctrl (testHalt 2) testWaiting) .ctrl .halt (testHalt 2))
    ∧ (Settled (testHold .ctrl (testHalt 2) testWaiting))
    ∧ (Shaped (testHold .ctrl (testHalt 2) testWaiting))
    ∧ ((testHold .ctrl (testHalt 2) testWaiting).estopLatch = false ∧ (testHold .ctrl (testHalt 2) testRunning).estopLatch
      = false)
    ∧ (∀ (c : Chan) (i : SlotIx), hasChan (recMask (testHalt 2) 8) c = true
      → Entry.marker i ∉ ((testHold .ctrl (testHalt 2) testRunning).chan c).queue)
    ∧ (∃ c : Chan, hasChan (recMask (testHalt 2) 8) c = true ∧ Entry.marker 0 ∈ (testWaiting.chan c).queue)
    ∧ (∃ c : Chan, hasChan (recMask (testHalt 2) 8) c = false ∧ ∃ sl ∈ testWaiting.slots[(0 : SlotIx)], hasChan sl.members c
      = true)
    ∧ (∃ c : Chan, hasChan (recMask (testHalt 2) 8) c = false ∧ ∀ i : SlotIx, ∀ sl ∈ testWaiting.slots[i], hasChan sl.members c
      = false)
    ∧ (TakenNow (testHold .ctrl testResume testHeld) .ctrl .resume testResume) := by
  decide +kernel

set_option maxRecDepth 4000 in
set_option synthInstance.maxSize 4096 in
set_option synthInstance.maxHeartbeats 400000 in
/-- Facts about the small states that the theorems below cite. -/
theorem test_facts_13 :
    (Settled (testHold .ctrl testResume testHeld))
    ∧ ((testHold .ctrl testResume testHeld).estopLatch = false)
    ∧ (TakenNow (testHold .ctrl testResume testState11) .ctrl .resume testResume)
    ∧ (Settled (testHold .ctrl testResume testState11))
    ∧ ((testHold .ctrl testResume testState11).estopLatch = true)
    ∧ (TakenNow (testHold .ctrl (testOverride 8 600) testRunning) .ctrl .overrideRate (testOverride 8 600))
    ∧ (Settled (testHold .ctrl (testOverride 8 600) testRunning))
    ∧ (Shaped (testHold .ctrl (testOverride 8 600) testRunning))
    ∧ (7 < recChannel (testOverride 8 600))
    ∧ (TakenNow (testHold .ctrl (testOverride 0 0) testRunning) .ctrl .overrideRate (testOverride 0 0))
    ∧ (Settled (testHold .ctrl (testOverride 0 0) testRunning))
    ∧ (Shaped (testHold .ctrl (testOverride 0 0) testRunning))
    ∧ (recChannel (testOverride 0 0) ≤ 7 ∧ ¬(1 ≤ blockField (testOverride 0 0) 8 4
      ∧ blockField (testOverride 0 0) 8 4 ≤ 400000))
    ∧ (TakenNow (testHold .ctrl (testOverride 0 600) testIdle) .ctrl .overrideRate (testOverride 0 600))
    ∧ (Settled (testHold .ctrl (testOverride 0 600) testIdle))
    ∧ (Shaped (testHold .ctrl (testOverride 0 600) testIdle))
    ∧ (1 ≤ blockField (testOverride 0 600) 8 4 ∧ blockField (testOverride 0 600) 8 4
      ≤ 400000 ∧ ((testHold .ctrl (testOverride 0 600) testIdle).chan (recChan (testOverride 0 600))).state
      ≠ .running)
    ∧ (TakenNow (testHold .ctrl (testOverride 0 600) (testStepWith fun p => { p with phase := .final })) .ctrl .overrideRate (testOverride 0 600))
    ∧ (Settled (testHold .ctrl (testOverride 0 600) (testStepWith fun p => { p with phase := .final })))
    ∧ (Shaped (testHold .ctrl (testOverride 0 600) (testStepWith fun p => { p with phase := .final }))) := by
  decide +kernel

set_option maxRecDepth 4000 in
set_option synthInstance.maxSize 4096 in
set_option synthInstance.maxHeartbeats 400000 in
/-- Facts about the small states that the theorems below cite. -/
theorem test_facts_14 :
    (((testHold .ctrl (testOverride 0 600) (testStepWith fun p => { p with phase := .final })).chan (recChan (testOverride 0 600))).state
      = .running ∧ ((testHold .ctrl (testOverride 0 600) (testStepWith fun p => { p with phase := .final })).chan (recChan (testOverride 0 600))).pgn.phase
      = .final)
    ∧ (TakenNow (testHold .ctrl (testOverride 0 99) testRunning) .ctrl .overrideRate (testOverride 0 99))
    ∧ (Settled (testHold .ctrl (testOverride 0 99) testRunning))
    ∧ (Shaped (testHold .ctrl (testOverride 0 99) testRunning))
    ∧ (((testHold .ctrl (testOverride 0 99) testRunning).chan (recChan (testOverride 0 99))).state
      = .running ∧ ((testHold .ctrl (testOverride 0 99) testRunning).chan (recChan (testOverride 0 99))).pgn.phase
      ≠ .final ∧ ((testHold .ctrl (testOverride 0 99) testRunning).chan (recChan (testOverride 0 99))).headMove?
      = some (testEntry 100) ∧ blockField (testOverride 0 99) 8 4 < (testEntry 100).profile.vs)
    ∧ (TakenNow (testHold .ctrl (testOverride 0 600) testRunning) .ctrl .overrideRate (testOverride 0 600))
    ∧ (Settled (testHold .ctrl (testOverride 0 600) testRunning))
    ∧ (Shaped (testHold .ctrl (testOverride 0 600) testRunning))
    ∧ (recChannel (testOverride 0 600) ≤ 7 ∧ 1 ≤ blockField (testOverride 0 600) 8 4
      ∧ blockField (testOverride 0 600) 8 4 ≤ 400000 ∧ ((testHold .ctrl (testOverride 0 600) testRunning).chan (recChan (testOverride 0 600))).state
      = .running ∧ ((testHold .ctrl (testOverride 0 600) testRunning).chan (recChan (testOverride 0 600))).headMove?
      = some (testEntry 100) ∧ ((testHold .ctrl (testOverride 0 600) testRunning).chan (recChan (testOverride 0 600))).pgn.phase
      ≠ .final ∧ (testEntry 100).profile.vs ≤ blockField (testOverride 0 600) 8 4
      ∧ blockField (testOverride 0 600) 8 4 ≤ ((testHold .ctrl (testOverride 0 600) testRunning).chan (recChan (testOverride 0 600))).cfg.maxRate)
    ∧ (((testHold .ctrl (testOverride 0 600) testRunning).chan (recChan (testOverride 0 600))).headBound = false)
    ∧ (TakenNow (testHold .ctrl (testOverride 0 600) testBound) .ctrl .overrideRate (testOverride 0 600))
    ∧ (Settled (testHold .ctrl (testOverride 0 600) testBound))
    ∧ (Shaped (testHold .ctrl (testOverride 0 600) testBound))
    ∧ (((testHold .ctrl (testOverride 0 600) testBound).chan (recChan (testOverride 0 600))).headMove?
      = some testEntry12 ∧ ((testHold .ctrl (testOverride 0 600) testBound).chan (recChan (testOverride 0 600))).pgn.phase
      ≠ .final ∧ ((testHold .ctrl (testOverride 0 600) testBound).chan (recChan (testOverride 0 600))).binding
      = .bound 500 100 1 { endPos := 150, steps := 50, positive := true }
      ∧ ((testHold .ctrl (testOverride 0 600) testBound).chan (recChan (testOverride 0 600))).queue[1]?
      = some (.move (testEntry 50)))
    ∧ (TakenNow (testCtrl testCancel) .ctrl .cancelRendezvous testCancel)
    ∧ (Settled (testCtrl testCancel))
    ∧ ((testCtrl testCancel).openList = [])
    ∧ (TakenNow (testHold .ctrl testCancel testWaiting) .ctrl .cancelRendezvous testCancel)
    ∧ (Settled (testHold .ctrl testCancel testWaiting))
    ∧ ((testHold .ctrl testCancel testWaiting).openList = [] ++ 0 :: []
      ∧ (testHold .ctrl testCancel testWaiting).slots[(0 : SlotIx)].map Slot.tag
      = some (blockWord testCancel 8)) := by
  decide +kernel

set_option maxRecDepth 4000 in
set_option synthInstance.maxSize 4096 in
set_option synthInstance.maxHeartbeats 400000 in
/-- Facts about the small states that the theorems below cite. -/
theorem test_facts_15 :
    (∀ (c : Chan) (j : SlotIx), hasChan 3 c = true → Entry.marker j ∈ ((testHold .ctrl testCancel testWaiting).chan c).queue
      → j = 0)
    ∧ (hasChan 3 2 = false)
    ∧ (((testHold .ctrl testCancel testWaiting).chan 0).state = .waiting
      ∧ ((testHold .ctrl testCancel testWaiting).chan 1).state = .dwelling
      ∧ (testHold .ctrl testCancel testWaiting).slots[(0 : SlotIx)].map Slot.members
      = some 3 ∧ (testHold .ctrl testCancel testWaiting).estopLatch = false)
    ∧ (TakenNow (testHold .ctrl testCancel testGathering) .ctrl .cancelRendezvous testCancel)
    ∧ (Settled (testHold .ctrl testCancel testGathering))
    ∧ ((testHold .ctrl testCancel testGathering).openList = [] ++ 0 :: []
      ∧ ((testHold .ctrl testCancel testGathering).chan 1).state = .running
      ∧ ((testHold .ctrl testCancel testGathering).chan 1).shaped = true
      ∧ (testHold .ctrl testCancel testGathering).slots[(0 : SlotIx)].map Slot.members
      = some 3)
    ∧ (TakenNow (testCtrl (testSetWatch 1)) .ctrl .setWatch (testSetWatch 1))
    ∧ (Settled (testCtrl (testSetWatch 1)))
    ∧ ((blockByte (testSetWatch 1) 8).toNat ≤ 15 ∧ recChannel (testSetWatch 1)
      ≤ 7 ∧ ((blockByte (testSetWatch 1) 9 = 1 ∧ (blockByte (testSetWatch 1) 10
      = 1 ∨ blockByte (testSetWatch 1) 10 = 2 ∨ blockByte (testSetWatch 1) 10
      = 3) ∧ blockByte (testSetWatch 1) 11 = 0 ∧ blockByte (testSetWatch 1) 12
      = 0 ∧ ((blockByte (testSetWatch 1) 13 = 1 ∧ blockField (testSetWatch 1) 20 2
      = 0) ∨ (blockByte (testSetWatch 1) 13 = 2 ∧ 1 ≤ blockField (testSetWatch 1) 20 2))) ∨ (blockByte (testSetWatch 1) 9
      = 2 ∧ blockByte (testSetWatch 1) 10 = 0 ∧ (blockByte (testSetWatch 1) 11).toNat
      ≤ 3 ∧ (blockByte (testSetWatch 1) 12 = 1 ∨ blockByte (testSetWatch 1) 12
      = 2 ∨ blockByte (testSetWatch 1) 12 = 3) ∧ blockField (testSetWatch 1) 16 4
      = 0 ∧ (blockByte (testSetWatch 1) 13 = 1 ∨ blockByte (testSetWatch 1) 13
      = 2) ∧ blockField (testSetWatch 1) 20 2 = 0)) ∧ (blockByte (testSetWatch 1) 14
      = 0 ∨ blockByte (testSetWatch 1) 14 = 1) ∧ (blockByte (testSetWatch 1) 15
      = 0 ∨ blockByte (testSetWatch 1) 15 = 1) ∧ blockByte (testSetWatch 1) 24 &&& blockByte (testSetWatch 1) 25
      = 0 ∧ ((blockByte (testSetWatch 1) 26 = 0 ∧ blockByte (testSetWatch 1) 27
      = 0) ∨ (blockByte (testSetWatch 1) 26 = 1 ∧ (blockByte (testSetWatch 1) 27).toNat
      ≤ 15)))
    ∧ (blockByte (testSetWatch 1) 9 = 1 ∧ blockByte (testSetWatch 1) 26 = 0)
    ∧ (TakenNow (testCtrl testEdgeWatch) .ctrl .setWatch testEdgeWatch)
    ∧ (Settled (testCtrl testEdgeWatch))
    ∧ ((blockByte testEdgeWatch 8).toNat ≤ 15 ∧ recChannel testEdgeWatch
      ≤ 7 ∧ ((blockByte testEdgeWatch 9 = 1 ∧ (blockByte testEdgeWatch 10
      = 1 ∨ blockByte testEdgeWatch 10 = 2 ∨ blockByte testEdgeWatch 10
      = 3) ∧ blockByte testEdgeWatch 11 = 0 ∧ blockByte testEdgeWatch 12
      = 0 ∧ ((blockByte testEdgeWatch 13 = 1 ∧ blockField testEdgeWatch 20 2
      = 0) ∨ (blockByte testEdgeWatch 13 = 2 ∧ 1 ≤ blockField testEdgeWatch 20 2))) ∨ (blockByte testEdgeWatch 9
      = 2 ∧ blockByte testEdgeWatch 10 = 0 ∧ (blockByte testEdgeWatch 11).toNat
      ≤ 3 ∧ (blockByte testEdgeWatch 12 = 1 ∨ blockByte testEdgeWatch 12
      = 2 ∨ blockByte testEdgeWatch 12 = 3) ∧ blockField testEdgeWatch 16 4
      = 0 ∧ (blockByte testEdgeWatch 13 = 1 ∨ blockByte testEdgeWatch 13
      = 2) ∧ blockField testEdgeWatch 20 2 = 0)) ∧ (blockByte testEdgeWatch 14
      = 0 ∨ blockByte testEdgeWatch 14 = 1) ∧ (blockByte testEdgeWatch 15
      = 0 ∨ blockByte testEdgeWatch 15 = 1) ∧ blockByte testEdgeWatch 24 &&& blockByte testEdgeWatch 25
      = 0 ∧ ((blockByte testEdgeWatch 26 = 0 ∧ blockByte testEdgeWatch 27
      = 0) ∨ (blockByte testEdgeWatch 26 = 1 ∧ (blockByte testEdgeWatch 27).toNat
      ≤ 15)))
    ∧ (blockByte testEdgeWatch 9 = 2 ∧ blockByte testEdgeWatch 26 = 1)
    ∧ (TakenNow (testCtrl testRearmWatch) .ctrl .setWatch testRearmWatch)
    ∧ (Settled (testCtrl testRearmWatch))
    ∧ ((blockByte testRearmWatch 8).toNat ≤ 15 ∧ recChannel testRearmWatch
      ≤ 7 ∧ ((blockByte testRearmWatch 9 = 1 ∧ (blockByte testRearmWatch 10
      = 1 ∨ blockByte testRearmWatch 10 = 2 ∨ blockByte testRearmWatch 10
      = 3) ∧ blockByte testRearmWatch 11 = 0 ∧ blockByte testRearmWatch 12
      = 0 ∧ ((blockByte testRearmWatch 13 = 1 ∧ blockField testRearmWatch 20 2
      = 0) ∨ (blockByte testRearmWatch 13 = 2 ∧ 1 ≤ blockField testRearmWatch 20 2))) ∨ (blockByte testRearmWatch 9
      = 2 ∧ blockByte testRearmWatch 10 = 0 ∧ (blockByte testRearmWatch 11).toNat
      ≤ 3 ∧ (blockByte testRearmWatch 12 = 1 ∨ blockByte testRearmWatch 12
      = 2 ∨ blockByte testRearmWatch 12 = 3) ∧ blockField testRearmWatch 16 4
      = 0 ∧ (blockByte testRearmWatch 13 = 1 ∨ blockByte testRearmWatch 13
      = 2) ∧ blockField testRearmWatch 20 2 = 0)) ∧ (blockByte testRearmWatch 14
      = 0 ∨ blockByte testRearmWatch 14 = 1) ∧ (blockByte testRearmWatch 15
      = 0 ∨ blockByte testRearmWatch 15 = 1) ∧ blockByte testRearmWatch 24 &&& blockByte testRearmWatch 25
      = 0 ∧ ((blockByte testRearmWatch 26 = 0 ∧ blockByte testRearmWatch 27
      = 0) ∨ (blockByte testRearmWatch 26 = 1 ∧ (blockByte testRearmWatch 27).toNat
      ≤ 15)))
    ∧ (TakenNow (testCtrl (testSetWatch 2)) .ctrl .setWatch (testSetWatch 2))
    ∧ (Settled (testCtrl (testSetWatch 2)))
    ∧ (¬((blockByte (testSetWatch 2) 8).toNat ≤ 15 ∧ recChannel (testSetWatch 2)
      ≤ 7 ∧ ((blockByte (testSetWatch 2) 9 = 1 ∧ (blockByte (testSetWatch 2) 10
      = 1 ∨ blockByte (testSetWatch 2) 10 = 2 ∨ blockByte (testSetWatch 2) 10
      = 3) ∧ blockByte (testSetWatch 2) 11 = 0 ∧ blockByte (testSetWatch 2) 12
      = 0 ∧ ((blockByte (testSetWatch 2) 13 = 1 ∧ blockField (testSetWatch 2) 20 2
      = 0) ∨ (blockByte (testSetWatch 2) 13 = 2 ∧ 1 ≤ blockField (testSetWatch 2) 20 2))) ∨ (blockByte (testSetWatch 2) 9
      = 2 ∧ blockByte (testSetWatch 2) 10 = 0 ∧ (blockByte (testSetWatch 2) 11).toNat
      ≤ 3 ∧ (blockByte (testSetWatch 2) 12 = 1 ∨ blockByte (testSetWatch 2) 12
      = 2 ∨ blockByte (testSetWatch 2) 12 = 3) ∧ blockField (testSetWatch 2) 16 4
      = 0 ∧ (blockByte (testSetWatch 2) 13 = 1 ∨ blockByte (testSetWatch 2) 13
      = 2) ∧ blockField (testSetWatch 2) 20 2 = 0)) ∧ (blockByte (testSetWatch 2) 14
      = 0 ∨ blockByte (testSetWatch 2) 14 = 1) ∧ (blockByte (testSetWatch 2) 15
      = 0 ∨ blockByte (testSetWatch 2) 15 = 1) ∧ blockByte (testSetWatch 2) 24 &&& blockByte (testSetWatch 2) 25
      = 0 ∧ ((blockByte (testSetWatch 2) 26 = 0 ∧ blockByte (testSetWatch 2) 27
      = 0) ∨ (blockByte (testSetWatch 2) 26 = 1 ∧ (blockByte (testSetWatch 2) 27).toNat
      ≤ 15)))) := by
  decide +kernel

set_option maxRecDepth 4000 in
set_option synthInstance.maxSize 4096 in
set_option synthInstance.maxHeartbeats 400000 in
/-- Facts about the small states that the theorems below cite. -/
theorem test_facts_16 :
    (TakenNow (testCtrl (testClearWatch 15)) .ctrl .clearWatch (testClearWatch 15))
    ∧ (Settled (testCtrl (testClearWatch 15)))
    ∧ ((15 : WatchIx).val = (blockByte (testClearWatch 15) 8).toNat)
    ∧ (TakenNow (testCtrl (testClearWatch 16)) .ctrl .clearWatch (testClearWatch 16))
    ∧ (Settled (testCtrl (testClearWatch 16)))
    ∧ (15 < (blockByte (testClearWatch 16) 8).toNat)
    ∧ (TakenNow (testHold .ctrl (testSetChannel 1 6) testIdle) .ctrl .setChannel (testSetChannel 1 6))
    ∧ (Settled (testHold .ctrl (testSetChannel 1 6) testIdle))
    ∧ (¬(recChannel (testSetChannel 1 6) ≤ 7 ∧ (blockByte (testSetChannel 1 6) 8
      = 0 ∨ blockByte (testSetChannel 1 6) 8 = 1) ∧ 1 ≤ (blockByte (testSetChannel 1 6) 9).toNat
      ∧ (blockByte (testSetChannel 1 6) 9).toNat ≤ 63 ∧ 1 ≤ (blockByte (testSetChannel 1 6) 10).toNat
      ∧ 1 ≤ blockField (testSetChannel 1 6) 12 4 ∧ blockField (testSetChannel 1 6) 12 4
      ≤ 400000 ∧ blockField (testSetChannel 1 6) 12 4 ≤ 500000 / (blockByte (testSetChannel 1 6) 9).toNat
      ∧ (blockWord (testSetChannel 1 6) 16).toInt ≤ (blockWord (testSetChannel 1 6) 20).toInt
      ∧ (blockByte (testSetChannel 1 6) 24 = 1 ∨ blockByte (testSetChannel 1 6) 24
      = 2) ∧ (blockByte (testSetChannel 1 6) 25 = 0 ∨ blockByte (testSetChannel 1 6) 25
      = 1) ∧ (blockByte (testSetChannel 1 6) 26 = 0 ∨ blockByte (testSetChannel 1 6) 26
      = 1) ∧ (blockByte (testSetChannel 1 6) 27 = 1 ∨ blockByte (testSetChannel 1 6) 27
      = 2)))
    ∧ (TakenNow (testHold .ctrl (testSetChannel 1 5) testRunning) .ctrl .setChannel (testSetChannel 1 5))
    ∧ (Settled (testHold .ctrl (testSetChannel 1 5) testRunning))
    ∧ (recChannel (testSetChannel 1 5) ≤ 7 ∧ (blockByte (testSetChannel 1 5) 8
      = 0 ∨ blockByte (testSetChannel 1 5) 8 = 1) ∧ 1 ≤ (blockByte (testSetChannel 1 5) 9).toNat
      ∧ (blockByte (testSetChannel 1 5) 9).toNat ≤ 63 ∧ 1 ≤ (blockByte (testSetChannel 1 5) 10).toNat
      ∧ 1 ≤ blockField (testSetChannel 1 5) 12 4 ∧ blockField (testSetChannel 1 5) 12 4
      ≤ 400000 ∧ blockField (testSetChannel 1 5) 12 4 ≤ 500000 / (blockByte (testSetChannel 1 5) 9).toNat
      ∧ (blockWord (testSetChannel 1 5) 16).toInt ≤ (blockWord (testSetChannel 1 5) 20).toInt
      ∧ (blockByte (testSetChannel 1 5) 24 = 1 ∨ blockByte (testSetChannel 1 5) 24
      = 2) ∧ (blockByte (testSetChannel 1 5) 25 = 0 ∨ blockByte (testSetChannel 1 5) 25
      = 1) ∧ (blockByte (testSetChannel 1 5) 26 = 0 ∨ blockByte (testSetChannel 1 5) 26
      = 1) ∧ (blockByte (testSetChannel 1 5) 27 = 1 ∨ blockByte (testSetChannel 1 5) 27
      = 2))
    ∧ (¬(((testHold .ctrl (testSetChannel 1 5) testRunning).chan (recChan (testSetChannel 1 5))).state
      = .disabled ∨ ((testHold .ctrl (testSetChannel 1 5) testRunning).chan (recChan (testSetChannel 1 5))).state
      = .idle ∨ (((testHold .ctrl (testSetChannel 1 5) testRunning).chan (recChan (testSetChannel 1 5))).state
      = .held ∧ ((testHold .ctrl (testSetChannel 1 5) testRunning).chan (recChan (testSetChannel 1 5))).pgn.pulseEnd
      = none)))
    ∧ (TakenNow (testHold .ctrl (testSetChannel 1 5) testOn) .ctrl .setChannel (testSetChannel 1 5))
    ∧ (Settled (testHold .ctrl (testSetChannel 1 5) testOn))
    ∧ (((testHold .ctrl (testSetChannel 1 5) testOn).chan (recChan (testSetChannel 1 5))).state
      = .disabled ∨ ((testHold .ctrl (testSetChannel 1 5) testOn).chan (recChan (testSetChannel 1 5))).state
      = .idle ∨ (((testHold .ctrl (testSetChannel 1 5) testOn).chan (recChan (testSetChannel 1 5))).state
      = .held ∧ ((testHold .ctrl (testSetChannel 1 5) testOn).chan (recChan (testSetChannel 1 5))).pgn.pulseEnd
      = none))
    ∧ (blockByte (testSetChannel 1 5) 8 = 1 ∧ ((testHold .ctrl (testSetChannel 1 5) testOn).chan (recChan (testSetChannel 1 5))).state
      = .disabled)
    ∧ (TakenNow (testHold .ctrl (testSetChannel 0 5) testIdle) .ctrl .setChannel (testSetChannel 0 5))
    ∧ (Settled (testHold .ctrl (testSetChannel 0 5) testIdle))
    ∧ (((testHold .ctrl (testSetChannel 0 5) testIdle).chan (recChan (testSetChannel 0 5))).state
      = .disabled ∨ ((testHold .ctrl (testSetChannel 0 5) testIdle).chan (recChan (testSetChannel 0 5))).state
      = .idle ∨ (((testHold .ctrl (testSetChannel 0 5) testIdle).chan (recChan (testSetChannel 0 5))).state
      = .held ∧ ((testHold .ctrl (testSetChannel 0 5) testIdle).chan (recChan (testSetChannel 0 5))).pgn.pulseEnd
      = none)) := by
  decide +kernel

set_option maxRecDepth 4000 in
set_option synthInstance.maxSize 4096 in
set_option synthInstance.maxHeartbeats 400000 in
/-- Facts about the small states that the theorems below cite. -/
theorem test_facts_17 :
    (blockByte (testSetChannel 0 5) 8 = 0)
    ∧ (TakenNow (testHold .ctrl (testSetChannel 1 5) testHeld) .ctrl .setChannel (testSetChannel 1 5))
    ∧ (Settled (testHold .ctrl (testSetChannel 1 5) testHeld))
    ∧ (((testHold .ctrl (testSetChannel 1 5) testHeld).chan (recChan (testSetChannel 1 5))).state
      = .disabled ∨ ((testHold .ctrl (testSetChannel 1 5) testHeld).chan (recChan (testSetChannel 1 5))).state
      = .idle ∨ (((testHold .ctrl (testSetChannel 1 5) testHeld).chan (recChan (testSetChannel 1 5))).state
      = .held ∧ ((testHold .ctrl (testSetChannel 1 5) testHeld).chan (recChan (testSetChannel 1 5))).pgn.pulseEnd
      = none))
    ∧ (blockByte (testSetChannel 1 5) 8 = 1 ∧ ((testHold .ctrl (testSetChannel 1 5) testHeld).chan (recChan (testSetChannel 1 5))).state
      ≠ .disabled)
    ∧ ((testIdle.chan 0).cfg.limitPolarity = .activeLow ∧ blockByte (testSetChannel 1 5) 24
      ≠ 2 ∧ blockByte ((testSetChannel 1 5).setIfInBounds 24 2) 24 = 2)
    ∧ (TakenNow (testHold .ctrl (testQuery 0) testRunning) .ctrl .query (testQuery 0))
    ∧ (Settled (testHold .ctrl (testQuery 0) testRunning))
    ∧ (∀ c : Chan, ((testHold .ctrl (testQuery 0) testRunning).chan c).queue.length ≤ Config.queueDepth)
    ∧ (recChannel (testQuery 0) ≤ 7)
    ∧ (TakenNow (testHold .ctrl (testQuery 8) testRunning) .ctrl .query (testQuery 8))
    ∧ (Settled (testHold .ctrl (testQuery 8) testRunning))
    ∧ (∀ c : Chan, ((testHold .ctrl (testQuery 8) testRunning).chan c).queue.length ≤ Config.queueDepth)
    ∧ (7 < recChannel (testQuery 8))
    ∧ (TakenNow (testCtrl testClearEstop) .ctrl .clearEstop testClearEstop)
    ∧ (Settled (testCtrl testClearEstop))
    ∧ ((testCtrl testClearEstop).estop.qualified = false)
    ∧ (TakenNow (testHold .ctrl testClearEstop testState13) .ctrl .clearEstop testClearEstop)
    ∧ (Settled (testHold .ctrl testClearEstop testState13))
    ∧ ((testHold .ctrl testClearEstop testState13).estop.qualified = true) := by
  decide +kernel

set_option maxRecDepth 4000 in
set_option synthInstance.maxSize 4096 in
set_option synthInstance.maxHeartbeats 400000 in
/-- Facts about the small states that the theorems below cite. -/
theorem test_facts_18 :
    (testIdle.inReset = false)
    ∧ (Settled testIdle)
    ∧ ((Instr.indexErrorClear 2048).wf = true ∧ (Instr.ignoredRegisterWrite 44 15 1).wf
      = true ∧ (Instr.ignoredRegisterWrite 32 15 1).wf = true ∧ (Instr.ignoredRegisterWrite 0 14 2).wf
      = true)
    ∧ ((2047 : Word).getLsbD 11 = false)
    ∧ (testIdle.part = .running ∧ (63 : Word).toNat < placeSize testIdle.mainRing.place
      ∧ placeSize testIdle.mainRing.place ≤ (64 : Word).toNat)
    ∧ ((31 : Word).toNat < placeSize testIdle.ctrlRing.place ∧ placeSize testIdle.ctrlRing.place
      ≤ (32 : Word).toNat ∧ (31 : Word).toNat < placeSize testIdle.cplPlace
      ∧ placeSize testIdle.cplPlace ≤ (32 : Word).toNat)
    ∧ (testStarting.inReset = false)
    ∧ (Settled testStarting)
    ∧ (¬(testStarting.part = .running ∨ testStarting.part = .draining ∨ testStarting.part = .failed))
    ∧ ((5 : Word).getLsbD 1 = false ∧ (5 : Word).getLsbD 0 = true ∧ (4 : Word).getLsbD 1
      = false ∧ (4 : Word).getLsbD 0 = false)
    ∧ (testRunning.inReset = false)
    ∧ (Settled testRunning)
    ∧ (Shaped testRunning)
    ∧ (NoSlots testRunning)
    ∧ (Shaped testStarting)
    ∧ (NoSlots testStarting)
    ∧ (testState14.inReset = false)
    ∧ (Settled testState14)
    ∧ (Shaped testState14)
    ∧ (NoSlots testState14) := by
  decide +kernel

set_option maxRecDepth 4000 in
set_option synthInstance.maxSize 4096 in
set_option synthInstance.maxHeartbeats 400000 in
/-- Facts about the small states that the theorems below cite. -/
theorem test_facts_19 :
    (testState15.inReset = false)
    ∧ (Settled testState15)
    ∧ (Shaped testState15)
    ∧ (NoSlots testState15)
    ∧ (testRunning.part = .running ∧ testStarting.part = .starting ∧ testState14.part = .off)
    ∧ ((testState14.setupLo.toNat + 4294967296 * testState14.setupHi.toNat) % 64
      = 0 ∧ (testState15.setupLo.toNat + 4294967296 * testState15.setupHi.toNat) % 64
      ≠ 0)
    ∧ ((testWaiting.modChan 1 fun ch => { ch with state := .idle, queue := [], dwellStart := none }).inReset = false)
    ∧ (Settled (testWaiting.modChan 1 fun ch => { ch with state := .idle, queue := [], dwellStart := none }))
    ∧ (Shaped (testWaiting.modChan 1 fun ch => { ch with state := .idle, queue := [], dwellStart := none }))
    ∧ (SlotsOk (testWaiting.modChan 1 fun ch => { ch with state := .idle, queue := [], dwellStart := none }))
    ∧ ((testWaiting.modChan 1 fun ch => { ch with state := .idle, queue := [], dwellStart := none }).part
      = .running ∧ ((testWaiting.modChan 1 fun ch => { ch with state := .idle, queue := [], dwellStart := none }).chan 1).state
      = .idle ∧ ∃ sl ∈ (testWaiting.modChan 1 fun ch => { ch with state := .idle, queue := [], dwellStart := none }).slots[(0 : SlotIx)], hasChan sl.members 1
      = true)
    ∧ (testMixed.inReset = false)
    ∧ (Settled testMixed)
    ∧ (Shaped testMixed)
    ∧ (NoSlots testMixed)
    ∧ (testMixed.part = .running ∧ (testMixed.chan 0).state = .idle ∧ (testMixed.chan 1).state
      = .running ∧ ∀ i : SlotIx, ∀ sl ∈ testMixed.slots[i], hasChan sl.members 0
      = false)
    ∧ (testWaiting.inReset = false)
    ∧ (Settled testWaiting)
    ∧ (Shaped testWaiting)
    ∧ (SlotsOk testWaiting) := by
  decide +kernel

set_option maxRecDepth 4000 in
set_option synthInstance.maxSize 4096 in
set_option synthInstance.maxHeartbeats 400000 in
/-- Facts about the small states that the theorems below cite. -/
theorem test_facts_20 :
    ((Instr.softReset 2).wf = true)
    ∧ (testPinsLow.inReset = false)
    ∧ (Settled testPinsLow)
    ∧ (testPinsLow.rst.completes (!testPinsLow.rst.level) 1 testPinsLow.now = true)
    ∧ (¬(testRunning.rst.completes (!testRunning.rst.level) 1 testRunning.now = true))
    ∧ (({ testAt 40 State.reset with rst := testPin true true }).inReset = true)
    ∧ (({ testAt 40 State.reset with rst := testPin true true }).rst.completes (!({ testAt 40 State.reset with rst := testPin true true }).rst.level) 1 ({ testAt 40 State.reset with rst := testPin true true }).now
      = true)
    ∧ (¬(testRunning.inReset = true ∧ testRunning.rst.completes (!testRunning.rst.level) 1 testRunning.now = true))
    ∧ ((testAfter .pinResetAssert testPinsLow).inReset = true)
    ∧ (Instr.nop .main ≠ .pinResetRelease)
    ∧ (({ testAt 160 testRunning with estop := testPin true true }).inReset = false)
    ∧ (Settled ({ testAt 160 testRunning with estop := testPin true true }))
    ∧ (Shaped ({ testAt 160 testRunning with estop := testPin true true }))
    ∧ (NoSlots ({ testAt 160 testRunning with estop := testPin true true }))
    ∧ (Shaped testPinsLow)
    ∧ (NoSlots testPinsLow)
    ∧ (({ testAt 160 testHeld with estop := testPin false false, estopLatch := true }).inReset = false)
    ∧ (Settled ({ testAt 160 testHeld with estop := testPin false false, estopLatch := true }))
    ∧ (Shaped ({ testAt 160 testHeld with estop := testPin false false, estopLatch := true }))
    ∧ (NoSlots ({ testAt 160 testHeld with estop := testPin false false, estopLatch := true })) := by
  decide +kernel

set_option maxRecDepth 4000 in
set_option synthInstance.maxSize 4096 in
set_option synthInstance.maxHeartbeats 400000 in
/-- Facts about the small states that the theorems below cite. -/
theorem test_facts_21 :
    (({ testAt 160 testStopping with estop := testPin false false, part := .failed, halts := [] }).inReset = false)
    ∧ (Settled ({ testAt 160 testStopping with estop := testPin false false, part := .failed, halts := [] }))
    ∧ (Shaped ({ testAt 160 testStopping with estop := testPin false false, part := .failed, halts := [] }))
    ∧ (NoSlots ({ testAt 160 testStopping with estop := testPin false false, part := .failed, halts := [] }))
    ∧ (({ testAt 160 testStarting with estop := testPin false false }).inReset = false)
    ∧ (Settled ({ testAt 160 testStarting with estop := testPin false false }))
    ∧ (Shaped ({ testAt 160 testStarting with estop := testPin false false }))
    ∧ (NoSlots ({ testAt 160 testStarting with estop := testPin false false }))
    ∧ (¬(testRunning.estop.completes (!testRunning.estop.level) 4 testRunning.now = true))
    ∧ (({ testAt 160 testRunning with estop := testPin true true }).estop.completes (!({ testAt 160 testRunning with estop := testPin true true }).estop.level) 4 ({ testAt 160 testRunning with estop := testPin true true }).now
      = true ∧ ({ testAt 160 testRunning with estop := testPin true true }).estop.qualified
      = true)
    ∧ (testPinsLow.estop.completes (!testPinsLow.estop.level) 4 testPinsLow.now
      = true ∧ testPinsLow.estop.qualified = false ∧ testPinsLow.part = .running
      ∧ testPinsLow.estopLatch = false ∧ testPinsLow.notices < 16)
    ∧ (({ testAt 160 testHeld with estop := testPin false false, estopLatch := true }).estop.completes (!({ testAt 160 testHeld with estop := testPin false false, estopLatch := true }).estop.level) 4 ({ testAt 160 testHeld with estop := testPin false false, estopLatch := true }).now
      = true ∧ ({ testAt 160 testHeld with estop := testPin false false, estopLatch := true }).estop.qualified
      = false ∧ ({ testAt 160 testHeld with estop := testPin false false, estopLatch := true }).estopLatch
      = true ∧ ({ testAt 160 testHeld with estop := testPin false false, estopLatch := true }).part
      ≠ .failed)
    ∧ ((testCrowded testPinsLow).inReset = false)
    ∧ (Settled (testCrowded testPinsLow))
    ∧ (Shaped (testCrowded testPinsLow))
    ∧ (NoSlots (testCrowded testPinsLow))
    ∧ ((testCrowded testPinsLow).estop.completes (!(testCrowded testPinsLow).estop.level) 4 (testCrowded testPinsLow).now
      = true ∧ (testCrowded testPinsLow).estop.qualified = false ∧ (testCrowded testPinsLow).part
      = .running ∧ (testCrowded testPinsLow).estopLatch = false ∧ 16 ≤ (testCrowded testPinsLow).notices)
    ∧ (({ testAt 160 testStopping with estop := testPin false false, part := .failed, halts := [] }).estop.completes (!({ testAt 160 testStopping with estop := testPin false false, part := .failed, halts := [] }).estop.level) 4 ({ testAt 160 testStopping with estop := testPin false false, part := .failed, halts := [] }).now
      = true ∧ ({ testAt 160 testStopping with estop := testPin false false, part := .failed, halts := [] }).estop.qualified
      = false ∧ ({ testAt 160 testStopping with estop := testPin false false, part := .failed, halts := [] }).part
      = .failed ∧ (({ testAt 160 testStopping with estop := testPin false false, part := .failed, halts := [] }).chan 0).state
      = .stopping)
    ∧ (({ testAt 160 testStarting with estop := testPin false false }).estop.completes (!({ testAt 160 testStarting with estop := testPin false false }).estop.level) 4 ({ testAt 160 testStarting with estop := testPin false false }).now
      = true ∧ ({ testAt 160 testStarting with estop := testPin false false }).estop.qualified
      = false ∧ ({ testAt 160 testStarting with estop := testPin false false }).part
      = .starting)
    ∧ (¬(((testRunning.chan 0).limit .limp).completes (if (testRunning.chan 0).cfg.limitPolarity
      = .activeHigh then ((testRunning.chan 0).limit .limp).level else !((testRunning.chan 0).limit .limp).level) (testRunning.chan 0).cfg.limitFilter testRunning.now
      = true ∧ ((testRunning.chan 0).limit .limp).qualified ≠ true)) := by
  decide +kernel

set_option maxRecDepth 4000 in
set_option synthInstance.maxSize 4096 in
set_option synthInstance.maxHeartbeats 400000 in
/-- Facts about the small states that the theorems below cite. -/
theorem test_facts_22 :
    (testLimitHit.inReset = false)
    ∧ (Settled testLimitHit)
    ∧ (Shaped testLimitHit)
    ∧ (((testLimitHit.chan 0).limit .limp).completes (if (testLimitHit.chan 0).cfg.limitPolarity
      = .activeHigh then ((testLimitHit.chan 0).limit .limp).level else !((testLimitHit.chan 0).limit .limp).level) (testLimitHit.chan 0).cfg.limitFilter testLimitHit.now
      = true ∧ ((testLimitHit.chan 0).limit .limp).qualified ≠ true)
    ∧ ((testLimitHit.chan 0).cfg.limpEnable = true ∧ (testLimitHit.chan 0).state
      = .running ∧ (testLimitHit.chan 0).resolved = some { endPos := 100, steps := 100, positive := true }
      ∧ (testLimitHit.chan 0).headMove? = some (testEntry 100) ∧ testLimitHit.notices
      < 16)
    ∧ ((testLimitHit.chan 0).pgn.pulseEnd ≠ none)
    ∧ ((testStepNext.modChan 0 fun ch => { ch with limp := testPin false false }).inReset = false)
    ∧ (Settled (testStepNext.modChan 0 fun ch => { ch with limp := testPin false false }))
    ∧ (Shaped (testStepNext.modChan 0 fun ch => { ch with limp := testPin false false }))
    ∧ ((((testStepNext.modChan 0 fun ch => { ch with limp := testPin false false }).chan 0).limit .limp).completes (if ((testStepNext.modChan 0 fun ch => { ch with limp := testPin false false }).chan 0).cfg.limitPolarity
      = .activeHigh then (((testStepNext.modChan 0 fun ch => { ch with limp := testPin false false }).chan 0).limit .limp).level else !(((testStepNext.modChan 0 fun ch => { ch with limp := testPin false false }).chan 0).limit .limp).level) ((testStepNext.modChan 0 fun ch => { ch with limp := testPin false false }).chan 0).cfg.limitFilter (testStepNext.modChan 0 fun ch => { ch with limp := testPin false false }).now
      = true ∧ (((testStepNext.modChan 0 fun ch => { ch with limp := testPin false false }).chan 0).limit .limp).qualified
      ≠ true)
    ∧ (((testStepNext.modChan 0 fun ch => { ch with limp := testPin false false }).chan 0).cfg.limpEnable
      = true ∧ ((testStepNext.modChan 0 fun ch => { ch with limp := testPin false false }).chan 0).state
      = .running ∧ ((testStepNext.modChan 0 fun ch => { ch with limp := testPin false false }).chan 0).resolved
      = some { endPos := 100, steps := 100, positive := true } ∧ ((testStepNext.modChan 0 fun ch => { ch with limp := testPin false false }).chan 0).headMove?
      = some (testEntry 100) ∧ (testStepNext.modChan 0 fun ch => { ch with limp := testPin false false }).notices
      < 16)
    ∧ (((testStepNext.modChan 0 fun ch => { ch with limp := testPin false false }).chan 0).pgn.pulseEnd = none)
    ∧ ((testCrowded testLimitHit).inReset = false)
    ∧ (Settled (testCrowded testLimitHit))
    ∧ (Shaped (testCrowded testLimitHit))
    ∧ ((((testCrowded testLimitHit).chan 0).limit .limp).completes (if ((testCrowded testLimitHit).chan 0).cfg.limitPolarity
      = .activeHigh then (((testCrowded testLimitHit).chan 0).limit .limp).level else !(((testCrowded testLimitHit).chan 0).limit .limp).level) ((testCrowded testLimitHit).chan 0).cfg.limitFilter (testCrowded testLimitHit).now
      = true ∧ (((testCrowded testLimitHit).chan 0).limit .limp).qualified
      ≠ true)
    ∧ (((testCrowded testLimitHit).chan 0).cfg.limpEnable = true ∧ ((testCrowded testLimitHit).chan 0).state
      = .running ∧ ((testCrowded testLimitHit).chan 0).resolved = some { endPos := 100, steps := 100, positive := true }
      ∧ ((testCrowded testLimitHit).chan 0).headMove? = some (testEntry 100)
      ∧ 16 ≤ (testCrowded testLimitHit).notices)
    ∧ (((testCrowded testLimitHit).chan 0).pgn.pulseEnd ≠ none)
    ∧ ((testStepNext.modChan 0 fun ch => { ch with limn := testPin false false }).inReset = false)
    ∧ (Settled (testStepNext.modChan 0 fun ch => { ch with limn := testPin false false })) := by
  decide +kernel

set_option maxRecDepth 4000 in
set_option synthInstance.maxSize 4096 in
set_option synthInstance.maxHeartbeats 400000 in
/-- Facts about the small states that the theorems below cite. -/
theorem test_facts_23 :
    (Shaped (testStepNext.modChan 0 fun ch => { ch with limn := testPin false false }))
    ∧ ((((testStepNext.modChan 0 fun ch => { ch with limn := testPin false false }).chan 0).limit .limn).completes (if ((testStepNext.modChan 0 fun ch => { ch with limn := testPin false false }).chan 0).cfg.limitPolarity
      = .activeHigh then (((testStepNext.modChan 0 fun ch => { ch with limn := testPin false false }).chan 0).limit .limn).level else !(((testStepNext.modChan 0 fun ch => { ch with limn := testPin false false }).chan 0).limit .limn).level) ((testStepNext.modChan 0 fun ch => { ch with limn := testPin false false }).chan 0).cfg.limitFilter (testStepNext.modChan 0 fun ch => { ch with limn := testPin false false }).now
      = true ∧ (((testStepNext.modChan 0 fun ch => { ch with limn := testPin false false }).chan 0).limit .limn).qualified
      ≠ true)
    ∧ (¬(∃ x ∈ ((testStepNext.modChan 0 fun ch => { ch with limn := testPin false false }).chan 0).resolved, (x.positive
      = true ↔ LimitInput.limn = .limp)))
    ∧ (¬((testIdle.caps[(0 : CapIx)]).completes (testIdle.caps[(0 : CapIx)]).level testIdle.capFilter[(0 : CapIx)] testIdle.now
      = true ∧ (testIdle.caps[(0 : CapIx)]).qualified ≠ false))
    ∧ (testState16.inReset = false)
    ∧ (Settled testState16)
    ∧ ((testState16.caps[(0 : CapIx)]).completes (testState16.caps[(0 : CapIx)]).level testState16.capFilter[(0 : CapIx)] testState16.now
      = true ∧ (testState16.caps[(0 : CapIx)]).qualified ≠ false)
    ∧ (NoWatches testState16)
    ∧ (testCapture.inReset = false)
    ∧ (Settled testCapture)
    ∧ ((testCapture.caps[(0 : CapIx)]).completes (testCapture.caps[(0 : CapIx)]).level testCapture.capFilter[(0 : CapIx)] testCapture.now
      = true ∧ (testCapture.caps[(0 : CapIx)]).qualified ≠ false)
    ∧ (testCapture.part = .running ∧ testCapture.watches[(2 : WatchIx)]
      = some testWatch ∧ testWatch.state = .armed ∧ testWatch.cond = .edge 0 .both false
      ∧ testWatch.decel = 0 ∧ testWatch.abrupt = 0 ∧ testWatch.arm = none
      ∧ testWatch.notify = true ∧ testCapture.notices < 16)
    ∧ ((testCrowded testCapture).inReset = false)
    ∧ (Settled (testCrowded testCapture))
    ∧ (((testCrowded testCapture).caps[(0 : CapIx)]).completes ((testCrowded testCapture).caps[(0 : CapIx)]).level (testCrowded testCapture).capFilter[(0 : CapIx)] (testCrowded testCapture).now
      = true ∧ ((testCrowded testCapture).caps[(0 : CapIx)]).qualified ≠ false)
    ∧ (16 ≤ (testCrowded testCapture).notices ∧ (testCrowded testCapture).watches[(2 : WatchIx)] = some testWatch)
    ∧ (OneWatch testCapture)
    ∧ (State.reset.part ≠ .running ∧ State.reset.part ≠ .draining)
    ∧ (¬(State.reset.part = .running ∨ State.reset.part = .draining))
    ∧ (testArmed.part = .running ∧ testArmed.watches[(2 : WatchIx)] = some testStepWatch
      ∧ testStepWatch.state = .armed ∧ testStepWatch.channel = 0 ∧ testStepWatch.cond
      = .position 2 .up (some 5)) := by
  decide +kernel

set_option maxRecDepth 4000 in
set_option synthInstance.maxSize 4096 in
set_option synthInstance.maxHeartbeats 400000 in
/-- Facts about the small states that the theorems below cite. -/
theorem test_facts_24 :
    ((chansOf testStepWatch.decel) = [0] ∧ (chansOf testStepWatch.abrupt) = [1] ∧ testStepWatch.arm = some 5)
    ∧ ((testArmed.watches[(5 : WatchIx)]).map Watch.state = some .dormant
      ∧ (testArmed.watches[(7 : WatchIx)]).map Watch.state = some .cooling)
    ∧ (∃ w ∈ testArmed.watches[(7 : WatchIx)], rearms w 0 2 = true)
    ∧ (testArmed.inReset = false ∧ (testArmed.chan 0).state = .running ∧ (testArmed.chan 0).pgn.schedule
      = some { due := 283687, rateSq := 20000 } ∧ 283687 ≤ testArmed.now)
    ∧ ((testArmed.chan 0).headMove? = some (testEntry 100) ∧ 1 ≤ (testArmed.chan 0).pgn.remaining)
    ∧ (syncingSlot? testIdle = none)
    ∧ ((testAt 39 testSyncing).inReset = false)
    ∧ (Settled (testAt 39 testSyncing))
    ∧ (syncingSlot? (testAt 39 testSyncing) = some 0 ∧ (testAt 39 testSyncing).xsyncRun
      = some 0 ∧ (testAt 39 testSyncing).now < 0 + 40)
    ∧ ((testAt 40 testSyncing).inReset = false)
    ∧ (Settled (testAt 40 testSyncing))
    ∧ (syncingSlot? (testAt 40 testSyncing) = some 0 ∧ (testAt 40 testSyncing).xsyncRun
      = some 0 ∧ 0 + 40 ≤ (testAt 40 testSyncing).now)
    ∧ (∃ sl ∈ (testAt 40 testSyncing).slots[(0 : SlotIx)], ∀ c ∈ chansOf sl.members, ((testAt 40 testSyncing).chan c).state
      = .waiting ∧ ((testAt 40 testSyncing).chan c).queue = [.marker 0])
    ∧ (((testAt 40 testSyncing).modChan 0 fun ch => { ch with queue := ch.queue ++ [.move (testEntry 100)] }).inReset
      = false)
    ∧ (Settled ((testAt 40 testSyncing).modChan 0 fun ch => { ch with queue := ch.queue ++ [.move (testEntry 100)] }))
    ∧ (syncingSlot? ((testAt 40 testSyncing).modChan 0 fun ch => { ch with queue := ch.queue ++ [.move (testEntry 100)] })
      = some 0 ∧ ((testAt 40 testSyncing).modChan 0 fun ch => { ch with queue := ch.queue ++ [.move (testEntry 100)] }).xsyncRun
      = some 0 ∧ 0 + 40 ≤ ((testAt 40 testSyncing).modChan 0 fun ch => { ch with queue := ch.queue ++ [.move (testEntry 100)] }).now)
    ∧ (∃ sl ∈ ((testAt 40 testSyncing).modChan 0 fun ch => { ch with queue := ch.queue ++ [.move (testEntry 100)] }).slots[(0 : SlotIx)], ∀ c ∈ chansOf sl.members, (((testAt 40 testSyncing).modChan 0 fun ch => { ch with queue := ch.queue ++ [.move (testEntry 100)] }).chan c).state
      = .waiting ∧ (((testAt 40 testSyncing).modChan 0 fun ch => { ch with queue := ch.queue ++ [.move (testEntry 100)] }).chan c).queue
      = .marker 0 :: [.move (testEntry 100)])
    ∧ (testGathering.inReset = false)
    ∧ (Settled testGathering)
    ∧ (∀ sl ∈ testGathering.slots[(0 : SlotIx)], ∀ e ∈ sl.expiry, sl.state ≠ .opened → testGathering.now < e) := by
  decide +kernel

set_option maxRecDepth 4000 in
set_option synthInstance.maxSize 4096 in
set_option synthInstance.maxHeartbeats 400000 in
/-- Facts about the small states that the theorems below cite. -/
theorem test_facts_25 :
    ((testAt 200000 testWaiting).inReset = false)
    ∧ (Settled (testAt 200000 testWaiting))
    ∧ (∃ sl ∈ (testAt 200000 testWaiting).slots[(0 : SlotIx)], sl.state
      = .gathering ∧ sl.expiry = some 200000 ∧ 200000 ≤ (testAt 200000 testWaiting).now
      ∧ (testAt 200000 testWaiting).estopLatch = false ∧ (chansOf sl.members)
      = [0, 1])
    ∧ (((testAt 200000 testWaiting).chan 0).shaped = true ∧ ((testAt 200000 testWaiting).chan 0).state
      = .waiting ∧ ((testAt 200000 testWaiting).chan 1).shaped = true ∧ ((testAt 200000 testWaiting).chan 1).state
      = .dwelling)
    ∧ ((testAt 200000 testGathering).inReset = false)
    ∧ (Settled (testAt 200000 testGathering))
    ∧ (∃ sl ∈ (testAt 200000 testGathering).slots[(0 : SlotIx)], sl.state
      = .gathering ∧ sl.expiry = some 200000 ∧ 200000 ≤ (testAt 200000 testGathering).now
      ∧ (testAt 200000 testGathering).estopLatch = false ∧ (chansOf sl.members)
      = [0, 1])
    ∧ (((testAt 200000 testGathering).chan 0).shaped = true ∧ ((testAt 200000 testGathering).chan 0).state
      = .waiting ∧ ((testAt 200000 testGathering).chan 1).shaped = true
      ∧ ((testAt 200000 testGathering).chan 1).state = .running ∧ ((testAt 200000 testGathering).chan 1).pgn.emitted
      ≠ 0)
    ∧ (∀ c j, hasChan 3 c = true → .marker j ∈ ((testAt 200000 testGathering).chan c).queue → j = 0)
    ∧ ((testAt 200000 testSyncing).inReset = false)
    ∧ (Settled (testAt 200000 testSyncing))
    ∧ (∃ sl ∈ (testAt 200000 testSyncing).slots[(0 : SlotIx)], sl.state
      = .syncing ∧ sl.expiry = some 200000 ∧ 200000 ≤ (testAt 200000 testSyncing).now
      ∧ (testAt 200000 testSyncing).estopLatch = false ∧ (chansOf sl.members)
      = [0])
    ∧ ((∀ sl ∈ testGathering.slots[(0 : SlotIx)], hasChan sl.members 2 = false)
      ∧ ∃ sl ∈ testGathering.slots[(0 : SlotIx)], hasChan sl.members 1 = true)
    ∧ (testGathering.estopLatch = false ∧ testGathering.part = .running)
    ∧ (testCfg.valid = true ∧ 1 ≤ 100000 ∧ 100000 ≤ testCfg.maxRate)
    ∧ (1 ≤ (testEntry 5).profile.b)
    ∧ (testEntry12.exitRate = some 800 ∧ bindingCandidate (testBound.chan 0).queue.tail 1
      = some (.move (testEntry 50), 1) ∧ decideBinding (testBound.chan 0) testEntry12 { endPos := 100, steps := 100, positive := true }
      = .bound 800 100 1 { endPos := 150, steps := 50, positive := true })
    ∧ (bindingCandidate (testRunning.chan 0).queue.tail 1 = none)
    ∧ (Settled testStepNext)
    ∧ ((testStepNext.chan 0).pgn.schedule = some { due := 283687, rateSq := 20000 } ∧ testStepNext.now < 283687) := by
  decide +kernel

set_option maxRecDepth 4000 in
set_option synthInstance.maxSize 4096 in
set_option synthInstance.maxHeartbeats 400000 in
/-- Facts about the small states that the theorems below cite. -/
theorem test_facts_26 :
    ((testAt 283687 testStepNext).inReset = false)
    ∧ (Settled (testAt 283687 testStepNext))
    ∧ (((testAt 283687 testStepNext).chan 0).pgn.schedule = some { due := 283687, rateSq := 20000 }
      ∧ 283687 ≤ (testAt 283687 testStepNext).now ∧ (((testAt 283687 testStepNext).chan 0).state
      = .running ∨ ((testAt 283687 testStepNext).chan 0).state = .stopping))
    ∧ (((testAt 283687 testStepNext).chan 0).headMove? = some (testEntry 100)
      ∧ 1 ≤ ((testAt 283687 testStepNext).chan 0).pgn.remaining)
    ∧ (NoWatches (testAt 283687 testStepNext))
    ∧ (1 ≤ ((testAt 283687 testStepNext).chan 0).pgn.remaining - 1 ∧ ((testAt 283687 testStepNext).chan 0).pgn.stopMode
      ≠ .decel ∧ ((testAt 283687 testStepNext).chan 0).binding ≠ .pending
      ∧ ((testAt 283687 testStepNext).chan 0).pgn.phase ≠ .final)
    ∧ (stepsDown (candidateSq 20000 ((testEntry 100).profile.vc ^ 2) (testEntry 100).profile.a (testEntry 100).profile.b) (exitTarget ((testAt 283687 testStepNext).chan 0).binding (testEntry 100) ^ 2) (testEntry 100).profile.b
      ≤ ((testAt 283687 testStepNext).chan 0).pgn.remaining - 1 - 1)
    ∧ ((testAt 283687 (testStepWith fun p => { p with remaining := 1 })).inReset = false)
    ∧ (Settled (testAt 283687 (testStepWith fun p => { p with remaining := 1 })))
    ∧ (((testAt 283687 (testStepWith fun p => { p with remaining := 1 })).chan 0).pgn.schedule
      = some { due := 283687, rateSq := 20000 } ∧ 283687 ≤ (testAt 283687 (testStepWith fun p => { p with remaining := 1 })).now
      ∧ (((testAt 283687 (testStepWith fun p => { p with remaining := 1 })).chan 0).state
      = .running ∨ ((testAt 283687 (testStepWith fun p => { p with remaining := 1 })).chan 0).state
      = .stopping))
    ∧ (((testAt 283687 (testStepWith fun p => { p with remaining := 1 })).chan 0).headMove?
      = some (testEntry 100) ∧ 1 ≤ ((testAt 283687 (testStepWith fun p => { p with remaining := 1 })).chan 0).pgn.remaining)
    ∧ (NoWatches (testAt 283687 (testStepWith fun p => { p with remaining := 1 })))
    ∧ (((testAt 283687 (testStepWith fun p => { p with remaining := 1 })).chan 0).pgn.remaining - 1 = 0)
    ∧ ((testAt 283687 (testStepWith fun p => { p with phase := .final })).inReset = false)
    ∧ (Settled (testAt 283687 (testStepWith fun p => { p with phase := .final })))
    ∧ (((testAt 283687 (testStepWith fun p => { p with phase := .final })).chan 0).pgn.schedule
      = some { due := 283687, rateSq := 20000 } ∧ 283687 ≤ (testAt 283687 (testStepWith fun p => { p with phase := .final })).now
      ∧ (((testAt 283687 (testStepWith fun p => { p with phase := .final })).chan 0).state
      = .running ∨ ((testAt 283687 (testStepWith fun p => { p with phase := .final })).chan 0).state
      = .stopping))
    ∧ (((testAt 283687 (testStepWith fun p => { p with phase := .final })).chan 0).headMove?
      = some (testEntry 100) ∧ 1 ≤ ((testAt 283687 (testStepWith fun p => { p with phase := .final })).chan 0).pgn.remaining)
    ∧ (NoWatches (testAt 283687 (testStepWith fun p => { p with phase := .final })))
    ∧ (1 ≤ ((testAt 283687 (testStepWith fun p => { p with phase := .final })).chan 0).pgn.remaining - 1
      ∧ ((testAt 283687 (testStepWith fun p => { p with phase := .final })).chan 0).pgn.phase
      = .final)
    ∧ ((testAt 283687 (testStepWith fun p => { p with remaining := 2 })).inReset = false) := by
  decide +kernel

set_option maxRecDepth 4000 in
set_option synthInstance.maxSize 4096 in
set_option synthInstance.maxHeartbeats 400000 in
/-- Facts about the small states that the theorems below cite. -/
theorem test_facts_27 :
    (Settled (testAt 283687 (testStepWith fun p => { p with remaining := 2 })))
    ∧ (((testAt 283687 (testStepWith fun p => { p with remaining := 2 })).chan 0).pgn.schedule
      = some { due := 283687, rateSq := 20000 } ∧ 283687 ≤ (testAt 283687 (testStepWith fun p => { p with remaining := 2 })).now
      ∧ (((testAt 283687 (testStepWith fun p => { p with remaining := 2 })).chan 0).state
      = .running ∨ ((testAt 283687 (testStepWith fun p => { p with remaining := 2 })).chan 0).state
      = .stopping))
    ∧ (((testAt 283687 (testStepWith fun p => { p with remaining := 2 })).chan 0).headMove?
      = some (testEntry 100) ∧ 1 ≤ ((testAt 283687 (testStepWith fun p => { p with remaining := 2 })).chan 0).pgn.remaining)
    ∧ (NoWatches (testAt 283687 (testStepWith fun p => { p with remaining := 2 })))
    ∧ (1 ≤ ((testAt 283687 (testStepWith fun p => { p with remaining := 2 })).chan 0).pgn.remaining - 1
      ∧ ((testAt 283687 (testStepWith fun p => { p with remaining := 2 })).chan 0).pgn.phase
      ≠ .final ∧ ((testAt 283687 (testStepWith fun p => { p with remaining := 2 })).chan 0).pgn.remaining - 1 - 1
      < stepsDown (candidateSq 20000 ((testEntry 100).profile.vc ^ 2) (testEntry 100).profile.a (testEntry 100).profile.b) (exitTarget ((testAt 283687 (testStepWith fun p => { p with remaining := 2 })).chan 0).binding (testEntry 100) ^ 2) (testEntry 100).profile.b)
    ∧ ((testAt 283687 testPending).inReset = false)
    ∧ (Settled (testAt 283687 testPending))
    ∧ (((testAt 283687 testPending).chan 0).pgn.schedule = some { due := 283687, rateSq := 20000 }
      ∧ 283687 ≤ (testAt 283687 testPending).now ∧ (((testAt 283687 testPending).chan 0).state
      = .running ∨ ((testAt 283687 testPending).chan 0).state = .stopping))
    ∧ (NoWatches (testAt 283687 testPending))
    ∧ (((testAt 283687 testPending).chan 0).headMove? = some testChainEntry
      ∧ 1 ≤ ((testAt 283687 testPending).chan 0).pgn.remaining - 1 ∧ ((testAt 283687 testPending).chan 0).pgn.stopMode
      ≠ .decel ∧ ((testAt 283687 testPending).chan 0).pgn.phase ≠ .final
      ∧ ((testAt 283687 testPending).chan 0).binding = .pending ∧ ((testAt 283687 testPending).chan 0).resolved
      = some { endPos := 100, steps := 100, positive := true })
    ∧ (((testAt 283687 testPending).chan 0).pgn.remaining - 1 ≠ 1 ∧ stepsDown (candidateSq 20000 (testChainEntry.profile.vc ^ 2) testChainEntry.profile.a testChainEntry.profile.b) (testChainEntry.profile.vs ^ 2) testChainEntry.profile.b
      ≤ ((testAt 283687 testPending).chan 0).pgn.remaining - 1 - 1)
    ∧ ((testAt 283687 (testPending.modChan 0 fun ch => { ch with pgn := { ch.pgn with remaining := 2 } })).inReset
      = false)
    ∧ (Settled (testAt 283687 (testPending.modChan 0 fun ch => { ch with pgn := { ch.pgn with remaining := 2 } })))
    ∧ (((testAt 283687 (testPending.modChan 0 fun ch => { ch with pgn := { ch.pgn with remaining := 2 } })).chan 0).pgn.schedule
      = some { due := 283687, rateSq := 20000 } ∧ 283687 ≤ (testAt 283687 (testPending.modChan 0 fun ch => { ch with pgn := { ch.pgn with remaining := 2 } })).now
      ∧ (((testAt 283687 (testPending.modChan 0 fun ch => { ch with pgn := { ch.pgn with remaining := 2 } })).chan 0).state
      = .running ∨ ((testAt 283687 (testPending.modChan 0 fun ch => { ch with pgn := { ch.pgn with remaining := 2 } })).chan 0).state
      = .stopping))
    ∧ (NoWatches (testAt 283687 (testPending.modChan 0 fun ch => { ch with pgn := { ch.pgn with remaining := 2 } })))
    ∧ (((testAt 283687 (testPending.modChan 0 fun ch => { ch with pgn := { ch.pgn with remaining := 2 } })).chan 0).headMove?
      = some testChainEntry ∧ 1 ≤ ((testAt 283687 (testPending.modChan 0 fun ch => { ch with pgn := { ch.pgn with remaining := 2 } })).chan 0).pgn.remaining - 1
      ∧ ((testAt 283687 (testPending.modChan 0 fun ch => { ch with pgn := { ch.pgn with remaining := 2 } })).chan 0).pgn.stopMode
      ≠ .decel ∧ ((testAt 283687 (testPending.modChan 0 fun ch => { ch with pgn := { ch.pgn with remaining := 2 } })).chan 0).pgn.phase
      ≠ .final ∧ ((testAt 283687 (testPending.modChan 0 fun ch => { ch with pgn := { ch.pgn with remaining := 2 } })).chan 0).binding
      = .pending ∧ ((testAt 283687 (testPending.modChan 0 fun ch => { ch with pgn := { ch.pgn with remaining := 2 } })).chan 0).resolved
      = some { endPos := 100, steps := 100, positive := true })
    ∧ (((testAt 283687 (testPending.modChan 0 fun ch => { ch with pgn := { ch.pgn with remaining := 2 } })).chan 0).pgn.remaining - 1
      = 1)
    ∧ ((testAt 283687 testStopFast).inReset = false)
    ∧ (Settled (testAt 283687 testStopFast))
    ∧ (((testAt 283687 testStopFast).chan 0).pgn.schedule = some { due := 283687, rateSq := 20000 }
      ∧ 283687 ≤ (testAt 283687 testStopFast).now ∧ (((testAt 283687 testStopFast).chan 0).state
      = .running ∨ ((testAt 283687 testStopFast).chan 0).state = .stopping)) := by
  decide +kernel

set_option maxRecDepth 4000 in
set_option synthInstance.maxSize 4096 in
set_option synthInstance.maxHeartbeats 400000 in
/-- Facts about the small states that the theorems below cite. -/
theorem test_facts_28 :
    (((testAt 283687 testStopFast).chan 0).headMove? = some (testEntry 100)
      ∧ 1 ≤ ((testAt 283687 testStopFast).chan 0).pgn.remaining)
    ∧ (NoWatches (testAt 283687 testStopFast))
    ∧ (1 ≤ ((testAt 283687 testStopFast).chan 0).pgn.remaining - 1 ∧ ((testAt 283687 testStopFast).chan 0).pgn.stopMode
      = .decel ∧ (testEntry 100).profile.vs ^ 2 < 20000)
    ∧ (((testRunning.done .main 3 7 .cancelled .clear 0 5 0 0).showing testRunning 0).shows
      = some (0, testRunning.now) ∧ ((testRunning.done .main 3 7 .cancelled .clear 0 5 0 0).showing testRunning 0).status
      = .cancelled ∧ ((testRunning.done .main 3 7 .cancelled .clear 0 5 0 0).showing testRunning 0).kind
      = 3)
    ∧ (((testRunning.done .main 23 7 .ok .clear 0 5 0 0).showing testRunning 0).shows
      = some (0, testRunning.now) ∧ ((testRunning.done .main 23 7 .ok .clear 0 5 0 0).showing testRunning 0).status
      ≠ .cancelled)
    ∧ (testNopDone.posting.map (·.shows) = [none])
    ∧ (testSettling.inReset = false)
    ∧ (Settled testSettling)
    ∧ ((testSettling.chan 0).pgn.settleEnd = some 200 ∧ testSettling.now < 200)
    ∧ ((testAt 200 testSettling).inReset = false)
    ∧ (Settled (testAt 200 testSettling))
    ∧ (((testAt 200 testSettling).chan 0).state = .running ∧ ((testAt 200 testSettling).chan 0).pgn.phase
      = .settle ∧ ((testAt 200 testSettling).chan 0).pgn.settleEnd = some 200
      ∧ 200 ≤ (testAt 200 testSettling).now ∧ ((testAt 200 testSettling).chan 0).headMove?
      = some (testEntry 4294967294))
    ∧ (holdUntil ((testAt 200 testSettling).chan 0) ≤ (testAt 200 testSettling).now)
    ∧ (NoWatches (testAt 200 testSettling))
    ∧ ((testAt 200 testSettleHeld).inReset = false)
    ∧ (Settled (testAt 200 testSettleHeld))
    ∧ (((testAt 200 testSettleHeld).chan 0).state = .running ∧ ((testAt 200 testSettleHeld).chan 0).pgn.phase
      = .settle ∧ ((testAt 200 testSettleHeld).chan 0).pgn.settleEnd = some 200
      ∧ 200 ≤ (testAt 200 testSettleHeld).now ∧ ((testAt 200 testSettleHeld).chan 0).headMove?
      = some (testEntry 4294967294))
    ∧ ((testAt 200 testSettleHeld).now < holdUntil ((testAt 200 testSettleHeld).chan 0))
    ∧ ((testPending.chan 0).headMove? = some testChainEntry ∧ (testPending.chan 0).binding
      = .pending ∧ (testPending.chan 0).resolved = some { endPos := 100, steps := 100, positive := true })
    ∧ (stepsDown 10000 (testChainEntry.profile.vs ^ 2) testChainEntry.profile.b
      ≤ (testPending.chan 0).pgn.remaining - 1) := by
  decide +kernel

set_option maxRecDepth 4000 in
set_option synthInstance.maxSize 4096 in
set_option synthInstance.maxHeartbeats 400000 in
/-- Facts about the small states that the theorems below cite. -/
theorem test_facts_29 :
    (((testPending.modChan 0 fun ch => { ch with pgn := { ch.pgn with remaining := 2 } }).chan 0).headMove?
      = some testChainEntry ∧ ((testPending.modChan 0 fun ch => { ch with pgn := { ch.pgn with remaining := 2 } }).chan 0).binding
      = .pending ∧ ((testPending.modChan 0 fun ch => { ch with pgn := { ch.pgn with remaining := 2 } }).chan 0).resolved
      = some { endPos := 100, steps := 100, positive := true })
    ∧ (stepsDown 1000000 (testChainEntry.profile.vs ^ 2) testChainEntry.profile.b > ((testPending.modChan 0 fun ch => { ch with pgn := { ch.pgn with remaining := 2 } }).chan 0).pgn.remaining - 1)
    ∧ ((boundaryZero (testBound.chan 0) 10000).binding = .bound 500 100 1 { endPos := 150, steps := 50, positive := true }
      ∧ (boundaryZero (testRunning.chan 0) 10000).headBound = false)
    ∧ ((testRunning.chan 0).pgn.pulseEnd = some 200 ∧ testRunning.now < 200)
    ∧ ((testAt 200 testRunning).inReset = false)
    ∧ (Settled (testAt 200 testRunning))
    ∧ (((testAt 200 testRunning).chan 0).pgn.pulseEnd = some 200 ∧ 200 ≤ (testAt 200 testRunning).now)
    ∧ (((testAt 200 testRunning).chan 0).pgn.stopMode ≠ .abrupt ∧ ((testAt 200 testRunning).chan 0).state ≠ .held)
    ∧ ((testAt 200 testPulseHeld).inReset = false)
    ∧ (Settled (testAt 200 testPulseHeld))
    ∧ (((testAt 200 testPulseHeld).chan 0).pgn.pulseEnd = some 200 ∧ 200 ≤ (testAt 200 testPulseHeld).now)
    ∧ (((testAt 200 testPulseHeld).chan 0).pgn.stopMode = .abrupt ∧ ((testAt 200 testPulseHeld).chan 0).kept
      ≠ none ∧ ((testAt 200 testPulseHeld).chan 0).state = .held ∧ (testAt 200 testPulseHeld).halts
      ≠ [] ∧ haltsAfterRest (testAt 200 testPulseHeld) 0 = [])
    ∧ (testLastEnd.inReset = false)
    ∧ (Settled testLastEnd)
    ∧ ((testLastEnd.chan 0).pgn.lastEnd = some 900 ∧ testLastEnd.now < 900)
    ∧ ((testAt 900 testLastEnd).inReset = false)
    ∧ (Settled (testAt 900 testLastEnd))
    ∧ (((testAt 900 testLastEnd).chan 0).state = .running ∧ ((testAt 900 testLastEnd).chan 0).pgn.remaining
      = 0 ∧ ((testAt 900 testLastEnd).chan 0).pgn.lastEnd = some 900 ∧ 900
      ≤ (testAt 900 testLastEnd).now)
    ∧ (((testAt 900 testLastEnd).chan 0).queue = .move (testEntry 100) :: []
      ∧ ((testAt 900 testLastEnd).chan 0).headBound = false)
    ∧ (((testAt 900 testLastEnd).modChan 0 fun ch => { ch with queue := ch.queue ++ [.dwell 1 1, .move (testEntry 50)] }).inReset
      = false) := by
  decide +kernel

set_option maxRecDepth 4000 in
set_option synthInstance.maxSize 4096 in
set_option synthInstance.maxHeartbeats 400000 in
/-- Facts about the small states that the theorems below cite. -/
theorem test_facts_30 :
    (Settled ((testAt 900 testLastEnd).modChan 0 fun ch => { ch with queue := ch.queue ++ [.dwell 1 1, .move (testEntry 50)] }))
    ∧ ((((testAt 900 testLastEnd).modChan 0 fun ch => { ch with queue := ch.queue ++ [.dwell 1 1, .move (testEntry 50)] }).chan 0).state
      = .running ∧ (((testAt 900 testLastEnd).modChan 0 fun ch => { ch with queue := ch.queue ++ [.dwell 1 1, .move (testEntry 50)] }).chan 0).pgn.remaining
      = 0 ∧ (((testAt 900 testLastEnd).modChan 0 fun ch => { ch with queue := ch.queue ++ [.dwell 1 1, .move (testEntry 50)] }).chan 0).pgn.lastEnd
      = some 900 ∧ 900 ≤ ((testAt 900 testLastEnd).modChan 0 fun ch => { ch with queue := ch.queue ++ [.dwell 1 1, .move (testEntry 50)] }).now)
    ∧ ((((testAt 900 testLastEnd).modChan 0 fun ch => { ch with queue := ch.queue ++ [.dwell 1 1, .move (testEntry 50)] }).chan 0).queue
      = .move (testEntry 100) :: [.dwell 1 1, .move (testEntry 50)] ∧ (((testAt 900 testLastEnd).modChan 0 fun ch => { ch with queue := ch.queue ++ [.dwell 1 1, .move (testEntry 50)] }).chan 0).headBound
      = false)
    ∧ ((testAt 900 testBoundEnd).inReset = false)
    ∧ (Settled (testAt 900 testBoundEnd))
    ∧ (((testAt 900 testBoundEnd).chan 0).state = .running ∧ ((testAt 900 testBoundEnd).chan 0).pgn.remaining
      = 0 ∧ ((testAt 900 testBoundEnd).chan 0).pgn.lastEnd = some 900 ∧ 900
      ≤ (testAt 900 testBoundEnd).now)
    ∧ (((testAt 900 testBoundEnd).chan 0).binding = .bound 500 100 ((([] : List Entry)).length + 1) { endPos := 150, steps := 50, positive := true }
      ∧ ((testAt 900 testBoundEnd).chan 0).queue = .move testEntry12 :: ([] ++ .move (testEntry 50) :: []))
    ∧ (holdUntil ((testAt 900 testBoundEnd).chan 0) ≤ (testAt 900 testBoundEnd).now)
    ∧ (NoWatches (testAt 900 testBoundEnd))
    ∧ (((testAt 900 testBoundEnd).modChan 0 fun ch => { ch with queue := [.move testEntry12, .mark 11 1 2, .mark 12 2 0, .move (testEntry 50)], binding := .bound 500 100 3 { endPos := 150, steps := 50, positive := true } }).inReset
      = false)
    ∧ (Settled ((testAt 900 testBoundEnd).modChan 0 fun ch => { ch with queue := [.move testEntry12, .mark 11 1 2, .mark 12 2 0, .move (testEntry 50)], binding := .bound 500 100 3 { endPos := 150, steps := 50, positive := true } }))
    ∧ ((((testAt 900 testBoundEnd).modChan 0 fun ch => { ch with queue := [.move testEntry12, .mark 11 1 2, .mark 12 2 0, .move (testEntry 50)], binding := .bound 500 100 3 { endPos := 150, steps := 50, positive := true } }).chan 0).state
      = .running ∧ (((testAt 900 testBoundEnd).modChan 0 fun ch => { ch with queue := [.move testEntry12, .mark 11 1 2, .mark 12 2 0, .move (testEntry 50)], binding := .bound 500 100 3 { endPos := 150, steps := 50, positive := true } }).chan 0).pgn.remaining
      = 0 ∧ (((testAt 900 testBoundEnd).modChan 0 fun ch => { ch with queue := [.move testEntry12, .mark 11 1 2, .mark 12 2 0, .move (testEntry 50)], binding := .bound 500 100 3 { endPos := 150, steps := 50, positive := true } }).chan 0).pgn.lastEnd
      = some 900 ∧ 900 ≤ ((testAt 900 testBoundEnd).modChan 0 fun ch => { ch with queue := [.move testEntry12, .mark 11 1 2, .mark 12 2 0, .move (testEntry 50)], binding := .bound 500 100 3 { endPos := 150, steps := 50, positive := true } }).now)
    ∧ ((((testAt 900 testBoundEnd).modChan 0 fun ch => { ch with queue := [.move testEntry12, .mark 11 1 2, .mark 12 2 0, .move (testEntry 50)], binding := .bound 500 100 3 { endPos := 150, steps := 50, positive := true } }).chan 0).binding
      = .bound 500 100 (([.mark 11 1 2, .mark 12 2 0] : List Entry).length + 1) { endPos := 150, steps := 50, positive := true }
      ∧ (((testAt 900 testBoundEnd).modChan 0 fun ch => { ch with queue := [.move testEntry12, .mark 11 1 2, .mark 12 2 0, .move (testEntry 50)], binding := .bound 500 100 3 { endPos := 150, steps := 50, positive := true } }).chan 0).queue
      = .move testEntry12 :: ([.mark 11 1 2, .mark 12 2 0] ++ .move (testEntry 50) :: []))
    ∧ (holdUntil (((testAt 900 testBoundEnd).modChan 0 fun ch => { ch with queue := [.move testEntry12, .mark 11 1 2, .mark 12 2 0, .move (testEntry 50)], binding := .bound 500 100 3 { endPos := 150, steps := 50, positive := true } }).chan 0)
      ≤ ((testAt 900 testBoundEnd).modChan 0 fun ch => { ch with queue := [.move testEntry12, .mark 11 1 2, .mark 12 2 0, .move (testEntry 50)], binding := .bound 500 100 3 { endPos := 150, steps := 50, positive := true } }).now)
    ∧ (NoWatches ((testAt 900 testBoundEnd).modChan 0 fun ch => { ch with queue := [.move testEntry12, .mark 11 1 2, .mark 12 2 0, .move (testEntry 50)], binding := .bound 500 100 3 { endPos := 150, steps := 50, positive := true } }))
    ∧ (((testAt 900 testBoundEnd).modChan 0 fun ch => { ch with pgn := { ch.pgn with stopHold := some 899 } }).inReset
      = false)
    ∧ (Settled ((testAt 900 testBoundEnd).modChan 0 fun ch => { ch with pgn := { ch.pgn with stopHold := some 899 } }))
    ∧ ((((testAt 900 testBoundEnd).modChan 0 fun ch => { ch with pgn := { ch.pgn with stopHold := some 899 } }).chan 0).state
      = .running ∧ (((testAt 900 testBoundEnd).modChan 0 fun ch => { ch with pgn := { ch.pgn with stopHold := some 899 } }).chan 0).pgn.remaining
      = 0 ∧ (((testAt 900 testBoundEnd).modChan 0 fun ch => { ch with pgn := { ch.pgn with stopHold := some 899 } }).chan 0).pgn.lastEnd
      = some 900 ∧ 900 ≤ ((testAt 900 testBoundEnd).modChan 0 fun ch => { ch with pgn := { ch.pgn with stopHold := some 899 } }).now)
    ∧ ((((testAt 900 testBoundEnd).modChan 0 fun ch => { ch with pgn := { ch.pgn with stopHold := some 899 } }).chan 0).binding
      = .bound 500 100 ((([] : List Entry)).length + 1) { endPos := 150, steps := 50, positive := true }
      ∧ (((testAt 900 testBoundEnd).modChan 0 fun ch => { ch with pgn := { ch.pgn with stopHold := some 899 } }).chan 0).queue
      = .move testEntry12 :: ([] ++ .move (testEntry 50) :: []))
    ∧ (((testAt 900 testBoundEnd).modChan 0 fun ch => { ch with pgn := { ch.pgn with stopHold := some 899 } }).now
      < holdUntil (((testAt 900 testBoundEnd).modChan 0 fun ch => { ch with pgn := { ch.pgn with stopHold := some 899 } }).chan 0)) := by
  decide +kernel

set_option maxRecDepth 4000 in
set_option synthInstance.maxSize 4096 in
set_option synthInstance.maxHeartbeats 400000 in
/-- Facts about the small states that the theorems below cite. -/
theorem test_facts_31 :
    (testStopping.inReset = false)
    ∧ (Settled testStopping)
    ∧ ((testStopping.chan 0).pgn.lastEnd = some 400000 ∧ testStopping.now < 400000)
    ∧ ((testAt 400000 (testAfter (.pulseEnd 0) (testAt 200 testStopping))).inReset = false)
    ∧ (Settled (testAt 400000 (testAfter (.pulseEnd 0) (testAt 200 testStopping))))
    ∧ (((testAt 400000 (testAfter (.pulseEnd 0) (testAt 200 testStopping))).chan 0).state
      = .stopping ∧ ((testAt 400000 (testAfter (.pulseEnd 0) (testAt 200 testStopping))).chan 0).headMove?
      = some (testEntry 100) ∧ ((testAt 400000 (testAfter (.pulseEnd 0) (testAt 200 testStopping))).chan 0).pgn.lastEnd
      = some 400000 ∧ 400000 ≤ (testAt 400000 (testAfter (.pulseEnd 0) (testAt 200 testStopping))).now)
    ∧ (((testAt 400000 (testAfter (.pulseEnd 0) (testAt 200 testStopping))).chan 0).pgn.remaining
      ≠ 0 ∧ ((testAt 400000 (testAfter (.pulseEnd 0) (testAt 200 testStopping))).chan 0).pgn.pulseEnd
      = none ∧ (testAt 400000 (testAfter (.pulseEnd 0) (testAt 200 testStopping))).halts
      ≠ [] ∧ haltsAfterRest (testAt 400000 (testAfter (.pulseEnd 0) (testAt 200 testStopping))) 0
      = [])
    ∧ ((testAt 900 testStopEnd).inReset = false)
    ∧ (Settled (testAt 900 testStopEnd))
    ∧ (((testAt 900 testStopEnd).chan 0).state = .stopping ∧ ((testAt 900 testStopEnd).chan 0).headMove?
      = some (testEntry 100) ∧ ((testAt 900 testStopEnd).chan 0).pgn.lastEnd
      = some 900 ∧ 900 ≤ (testAt 900 testStopEnd).now)
    ∧ (((testAt 900 testStopEnd).chan 0).pgn.remaining = 0)
    ∧ (testDwelling.inReset = false)
    ∧ (Settled testDwelling)
    ∧ ((testDwelling.chan 0).state = .dwelling ∧ (testDwelling.chan 0).queue
      = .dwell 9 10 :: [] ∧ (testDwelling.chan 0).dwellStart = some 0)
    ∧ (testDwelling.now < 0 + 40 * 10)
    ∧ ((testAt 400 testDwelling).inReset = false)
    ∧ (Settled (testAt 400 testDwelling))
    ∧ (((testAt 400 testDwelling).chan 0).state = .dwelling ∧ ((testAt 400 testDwelling).chan 0).queue
      = .dwell 9 10 :: [] ∧ ((testAt 400 testDwelling).chan 0).dwellStart
      = some 0)
    ∧ (0 + 40 * 10 ≤ (testAt 400 testDwelling).now)
    ∧ (((testAt 400 testDwelling).modChan 0 fun ch => { ch with queue := ch.queue ++ [.move (testEntry 50)] }).inReset
      = false) := by
  decide +kernel

set_option maxRecDepth 4000 in
set_option synthInstance.maxSize 4096 in
set_option synthInstance.maxHeartbeats 400000 in
/-- Facts about the small states that the theorems below cite. -/
theorem test_facts_32 :
    (Settled ((testAt 400 testDwelling).modChan 0 fun ch => { ch with queue := ch.queue ++ [.move (testEntry 50)] }))
    ∧ ((((testAt 400 testDwelling).modChan 0 fun ch => { ch with queue := ch.queue ++ [.move (testEntry 50)] }).chan 0).state
      = .dwelling ∧ (((testAt 400 testDwelling).modChan 0 fun ch => { ch with queue := ch.queue ++ [.move (testEntry 50)] }).chan 0).queue
      = .dwell 9 10 :: [.move (testEntry 50)] ∧ (((testAt 400 testDwelling).modChan 0 fun ch => { ch with queue := ch.queue ++ [.move (testEntry 50)] }).chan 0).dwellStart
      = some 0)
    ∧ (0 + 40 * 10 ≤ ((testAt 400 testDwelling).modChan 0 fun ch => { ch with queue := ch.queue ++ [.move (testEntry 50)] }).now)
    ∧ (testState17.inReset = false)
    ∧ (Settled testState17)
    ∧ (testState17.oldest = some 0 ∧ testState17.coalescing = some (8, 1000)
      ∧ testState17.unannounced ≠ 0 ∧ testState17.part = .running)
    ∧ (testState17.now < 0 + 40 * 1000)
    ∧ ((testAt 40000 testState17).inReset = false)
    ∧ (Settled (testAt 40000 testState17))
    ∧ ((testAt 40000 testState17).oldest = some 0 ∧ (testAt 40000 testState17).coalescing
      = some (8, 1000) ∧ (testAt 40000 testState17).unannounced ≠ 0 ∧ (testAt 40000 testState17).part
      = .running)
    ∧ (0 + 40 * 1000 ≤ (testAt 40000 testState17).now)
    ∧ (testOn.inReset = false)
    ∧ (Settled testOn)
    ∧ (testOn.oldest = none)
    ∧ (testState18.inReset = false)
    ∧ (Settled testState18)
    ∧ (testState18.part = .running ∧ (testState18.ring .main).buffer = .empty
      ∧ (testState18.ring .main).suspended = false ∧ (testState18.ring .main).place
      = some { base := 65536, log2 := 6 } ∧ 1 ≤ (testState18.ring .main).posted)
    ∧ ((testOn.ring .main).posted = 0)
    ∧ (testState19.inReset = false)
    ∧ (Settled testState19) := by
  decide +kernel

set_option maxRecDepth 4000 in
set_option synthInstance.maxSize 4096 in
set_option synthInstance.maxHeartbeats 400000 in
/-- Facts about the small states that the theorems below cite. -/
theorem test_facts_33 :
    ((testState19.ring .main).buffer = .fetching 65536 ∧ testState19.notices < 16)
    ∧ ((testCrowded testState19).inReset = false)
    ∧ (Settled (testCrowded testState19))
    ∧ (((testCrowded testState19).ring .main).buffer = .fetching 65536 ∧ 16 ≤ (testCrowded testState19).notices)
    ∧ (testNopDone.inReset = false)
    ∧ (Settled testNopDone)
    ∧ (testNopDone.posting = testNopDone.posting.take 1 ∧ testNopDone.posting.length
      = 1 ∧ testNopDone.cplPlace = some { base := 262144, log2 := 5 } ∧ testNopDone.part
      = .running)
    ∧ (testNopDone.writing = none)
    ∧ ((testNopDone.cplWrite + 2 ^ 5 - testNopDone.cplRetire) % 2 ^ 5 < 2 ^ 5 - 1)
    ∧ ((State.reset).inReset = false)
    ∧ (Settled (State.reset))
    ∧ (¬((State.reset).part = .running ∨ (State.reset).part = .draining) ∧ (State.reset).writing = none)
    ∧ (testState20.inReset = false)
    ∧ (Settled testState20)
    ∧ (testState20.posting = testState20.posting.take 1 ∧ testState20.posting.length
      = 1 ∧ testState20.cplPlace = some { base := 262144, log2 := 5 } ∧ testState20.part
      = .running)
    ∧ (¬((testState20.cplWrite + 2 ^ 5 - testState20.cplRetire) % 2 ^ 5 < 2 ^ 5 - 1))
    ∧ (testWriting.inReset = false)
    ∧ (Settled testWriting)
    ∧ (testWriting.posting = testWriting.posting.take 1 ∧ testWriting.posting.length
      = 1 ∧ testWriting.cplPlace = some { base := 262144, log2 := 5 } ∧ testWriting.part
      = .running)
    ∧ (testWriting.writing ≠ none ∧ testWriting.cplWrite + 1 < 2 ^ 5 ∧ testWriting.coalescing
      = some (8, 1000) ∧ ¬(1000 = 0 ∨ max 8 1 ≤ testWriting.unannounced + 1)
      ∧ testWriting.unannounced = 0) := by
  decide +kernel

set_option maxRecDepth 4000 in
set_option synthInstance.maxSize 4096 in
set_option synthInstance.maxHeartbeats 400000 in
/-- Facts about the small states that the theorems below cite. -/
theorem test_facts_34 :
    ((testWriting.posting.map Cpl.charged) = [some .main])
    ∧ (2 ^ 5 ≤ testState21.cplWrite + 1 ∧ max 8 1 ≤ testState22.unannounced + 1)
    ∧ (Shaped testWriting)
    ∧ (NoSlots testWriting)
    ∧ (testWriting.writing ≠ none ∧ testWriting.part = .running)
    ∧ (testOn.part ≠ .starting ∧ testOn.setupRead = none)
    ∧ (testStarting.part = .starting ∧ testStarting.setupRead ≠ none ∧ testStarting.estop.qualified = false)
    ∧ (¬(∀ i : Fin 64, i.val = 27 ∨ 46 ≤ i.val → blockByte (testSetup.setIfInBounds 63 1) i.val = 0))
    ∧ ((∀ i : Fin 64, i.val = 27 ∨ 46 ≤ i.val → blockByte (testSetup.setIfInBounds 24 13) i.val
      = 0) ∧ ¬(4 ≤ blockField (testSetup.setIfInBounds 24 13) 24 1 ∧ blockField (testSetup.setIfInBounds 24 13) 24 1
      ≤ 12 ∧ 4 ≤ blockField (testSetup.setIfInBounds 24 13) 25 1 ∧ blockField (testSetup.setIfInBounds 24 13) 25 1
      ≤ 8 ∧ 5 ≤ blockField (testSetup.setIfInBounds 24 13) 26 1 ∧ blockField (testSetup.setIfInBounds 24 13) 26 1
      ≤ 13))
    ∧ ((∀ i : Fin 64, i.val = 27 ∨ 46 ≤ i.val → blockByte (testSetup.setIfInBounds 0 1) i.val
      = 0) ∧ (4 ≤ blockField (testSetup.setIfInBounds 0 1) 24 1 ∧ blockField (testSetup.setIfInBounds 0 1) 24 1
      ≤ 12 ∧ 4 ≤ blockField (testSetup.setIfInBounds 0 1) 25 1 ∧ blockField (testSetup.setIfInBounds 0 1) 25 1
      ≤ 8 ∧ 5 ≤ blockField (testSetup.setIfInBounds 0 1) 26 1 ∧ blockField (testSetup.setIfInBounds 0 1) 26 1
      ≤ 13) ∧ ¬(blockField (testSetup.setIfInBounds 0 1) 0 8 % 64 = 0 ∧ blockField (testSetup.setIfInBounds 0 1) 8 8 % 64
      = 0 ∧ blockField (testSetup.setIfInBounds 0 1) 16 8 % 64 = 0))
    ∧ ((∀ i : Fin 64, i.val = 27 ∨ 46 ≤ i.val → blockByte (testSetup.setIfInBounds 37 1) i.val
      = 0) ∧ (4 ≤ blockField (testSetup.setIfInBounds 37 1) 24 1 ∧ blockField (testSetup.setIfInBounds 37 1) 24 1
      ≤ 12 ∧ 4 ≤ blockField (testSetup.setIfInBounds 37 1) 25 1 ∧ blockField (testSetup.setIfInBounds 37 1) 25 1
      ≤ 8 ∧ 5 ≤ blockField (testSetup.setIfInBounds 37 1) 26 1 ∧ blockField (testSetup.setIfInBounds 37 1) 26 1
      ≤ 13) ∧ (blockField (testSetup.setIfInBounds 37 1) 0 8 % 64 = 0 ∧ blockField (testSetup.setIfInBounds 37 1) 8 8 % 64
      = 0 ∧ blockField (testSetup.setIfInBounds 37 1) 16 8 % 64 = 0) ∧ ¬(blockField (testSetup.setIfInBounds 37 1) 28 4
      ≤ 255 ∧ blockField (testSetup.setIfInBounds 37 1) 32 4 ≤ 65535 ∧ ∀ i : CapIx, blockField (testSetup.setIfInBounds 37 1) (36 + 2 * i.val) 2
      ≤ 255))
    ∧ ((∀ i : Fin 64, i.val = 27 ∨ 46 ≤ i.val → blockByte testSetup i.val
      = 0) ∧ (4 ≤ blockField testSetup 24 1 ∧ blockField testSetup 24 1
      ≤ 12 ∧ 4 ≤ blockField testSetup 25 1 ∧ blockField testSetup 25 1 ≤ 8
      ∧ 5 ≤ blockField testSetup 26 1 ∧ blockField testSetup 26 1 ≤ 13)
      ∧ (blockField testSetup 0 8 % 64 = 0 ∧ blockField testSetup 8 8 % 64
      = 0 ∧ blockField testSetup 16 8 % 64 = 0) ∧ (blockField testSetup 28 4
      ≤ 255 ∧ blockField testSetup 32 4 ≤ 65535 ∧ ∀ i : CapIx, blockField testSetup (36 + 2 * i.val) 2
      ≤ 255))
    ∧ (testState23.inReset = false)
    ∧ (Settled testState23)
    ∧ (Shaped testState23)
    ∧ (testState23.part = .starting ∧ testState23.setupRead ≠ none ∧ testState23.estop.qualified
      = true ∧ testState23.estopLatch = false ∧ testState23.openList = []
      ∧ testState23.notices < 16)
    ∧ (∀ c, (testState23.chan c).state = .idle ∨ (testState23.chan c).state
      = .held ∨ (testState23.chan c).state = .disabled)
    ∧ (testState24.inReset = false)
    ∧ (Settled testState24)
    ∧ (testState24.part = .draining ∧ (∀ c, (testState24.chan c).atRest
      = true ∧ (testState24.chan c).pgn.pulseEnd = none) ∧ testState24.mainRing.credits
      = 0 ∧ testState24.ctrlRing.credits = 0 ∧ testState24.posting = []
      ∧ testState24.writing = none) := by
  decide +kernel

set_option maxRecDepth 4000 in
set_option synthInstance.maxSize 4096 in
set_option synthInstance.maxHeartbeats 400000 in
/-- Facts about the small states that the theorems below cite. -/
theorem test_facts_35 :
    (¬(testOn.part = .draining ∧ (∀ c, (testOn.chan c).atRest = true ∧ (testOn.chan c).pgn.pulseEnd
      = none) ∧ testOn.mainRing.credits = 0 ∧ testOn.ctrlRing.credits = 0
      ∧ testOn.posting = [] ∧ testOn.writing = none))
    ∧ (44 ≤ (44 : BitVec 6).toNat ∧ 44 ≤ (63 : BitVec 6).toNat)
    ∧ ((56 : BitVec 6).toNat < 60 ∧ 60 ≤ (60 : BitVec 6).toNat)
    ∧ (OutputsNow (State.reset))
    ∧ (SlotsOk (State.reset))
    ∧ (State.reset.part = .off)
    ∧ (OutputsNow (testAfter (.enableClear 0) testRunning))
    ∧ (SlotsOk (testAfter (.enableClear 0) testRunning))
    ∧ ((testAfter (.enableClear 0) testRunning).part = .draining ∧ (testAfter (.enableClear 0) testRunning).stepPin 0
      = true)
    ∧ (OutputsNow (testAfter (.rendezvous .main) (testHold .main (testRdv 1 1) testRunning)))
    ∧ (SlotsOk (testAfter (.rendezvous .main) (testHold .main (testRdv 1 1) testRunning)))
    ∧ ((testAfter (.rendezvous .main) (testHold .main (testRdv 1 1) testRunning)).xsyncPinLow = true)
    ∧ (({ testAfter .pinResetAssert testPinsLow with pending := [.intCauseClear 0] }).inReset
      = true ∧ (∀ c : Chan, ({ testAfter .pinResetAssert testPinsLow with pending := [.intCauseClear 0] }).stepPin c
      = false ∧ ({ testAfter .pinResetAssert testPinsLow with pending := [.intCauseClear 0] }).dirPin c
      = false) ∧ ({ testAfter .pinResetAssert testPinsLow with pending := [.intCauseClear 0] }).auxPins
      = (0 : Mask) ∧ ({ testAfter .pinResetAssert testPinsLow with pending := [.intCauseClear 0] }).xsyncPinLow
      = false)
    ∧ (Steps ({ testAfter .pinResetAssert testPinsLow with pending := [.intCauseClear 0] }))
    ∧ (({ testAt 283687 testStepNext with pending := [.stepEmission 0] }).stepPin 0
      = false ∧ (testAfter (.stepEmission 0) (testAt 283687 testStepNext)).stepPin 0
      = true)
    ∧ (Steps ({ testAt 283687 testStepNext with pending := [.stepEmission 0] }))
    ∧ (({ testAt 200 testRunning with pending := [.pulseEnd 0] }).stepPin 0
      = true ∧ (testAfter (.pulseEnd 0) (testAt 200 testRunning)).stepPin 0
      = false)
    ∧ (Steps ({ testAt 200 testRunning with pending := [.pulseEnd 0] }))
    ∧ (testState25.dirPin 0 = true ∧ testSettling.dirPin 0 = false)
    ∧ (Steps testState25) := by
  decide +kernel

theorem test_meets_EmptyQueueRunsTheClock :
    (State.reset.pending = [] ∧ dueEvents State.reset = [])
    ∧ ((testHold .main testNop testOn).pending = [] ∧ dueEvents (testHold .main testNop testOn) = [.nop .main])
    ∧ (2 ≤ (dueEvents (testHold .main testNop (testHold .ctrl testNop testState1))).length)
    ∧ (testOn.part.counting = true ∧ testOn.clockPart < Config.cyclesPerUs ∧ testOn.clockPart ≠ 39)
    ∧ (testState2.clockPart < Config.cyclesPerUs ∧ testState2.clockPart = 39)
    ∧ (State.reset.part.counting = false ∧ (syncingSlot? State.reset).isSome = false)
    ∧ (testSyncing.part.counting = true ∧ testSyncing.clockPart < Config.cyclesPerUs
      ∧ (syncingSlot? testSyncing).isSome = true ∧ testSyncing.xsyncLow
      = false ∧ testSyncing.xsyncRun = some 0)
    ∧ (testSyncing.now + 1 < 0 + 40 ∧ 0 + 40 ≤ (testAt 39 testSyncing).now + 1)
    ∧ ((testPin false true).completes false 1 40 = true ∧ ({ testPin true true with since := 40, before := some 0 }).completes true 1 40
      = true) :=
  ⟨test_facts_0.1,
    test_facts_0.2.1,
    test_facts_0.2.2.1,
    test_facts_0.2.2.2.1,
    test_facts_0.2.2.2.2.1,
    test_facts_0.2.2.2.2.2.1,
    test_facts_0.2.2.2.2.2.2.1,
    test_facts_0.2.2.2.2.2.2.2.1,
    test_facts_0.2.2.2.2.2.2.2.2.1⟩

theorem test_meets_EventsFallDue :
    ((testAfter .pinResetAssert testPinsLow).inReset = true ∧ dueEvents { testAfter .pinResetAssert testPinsLow with now := 400, rst := testPin true true }
      = [.pinResetRelease])
    ∧ (testStepNext.inReset = false)
    ∧ (.stepEmission 0 ∉ dueEvents (testAt 283686 testStepNext) ∧ .stepEmission 0 ∈ dueEvents (testAt 283687 testStepNext))
    ∧ (.dwellExpiry 0 ∉ dueEvents (testAt 399 testDwelling) ∧ .dwellExpiry 0 ∈ dueEvents (testAt 400 testDwelling))
    ∧ (.xsyncQualified ∉ dueEvents (testAt 39 testSyncing) ∧ .xsyncQualified ∈ dueEvents (testAt 40 testSyncing)) :=
  ⟨test_facts_0.2.2.2.2.2.2.2.2.2.1,
    test_facts_0.2.2.2.2.2.2.2.2.2.2.1,
    test_facts_0.2.2.2.2.2.2.2.2.2.2.2.1,
    test_facts_0.2.2.2.2.2.2.2.2.2.2.2.2.1,
    test_facts_0.2.2.2.2.2.2.2.2.2.2.2.2.2.1⟩

theorem test_meets_StepKeepsTablesValid :
    (∀ c : Chan, (testState3.chan c).cfg.valid = true)
    ∧ (testState3.profilesValid)
    ∧ (∃ t, step testState3 = .next t) :=
  ⟨test_facts_0.2.2.2.2.2.2.2.2.2.2.2.2.2.2.1,
    test_profiles test_facts_0.2.2.2.2.2.2.2.2.2.2.2.2.2.2.2.1,
    test_steps test_facts_0.2.2.2.2.2.2.2.2.2.2.2.2.2.2.2.2.1⟩

theorem test_meets_StepKeepsCreditsAndNoticesBounded :
    (testState3.mainRing.credits ≤ Config.creditMain ∧ testState3.mainRing.credits + testState3.ctrlRing.credits
      ≤ Config.creditTotal)
    ∧ (testState3.notices ≤ Config.noticeLimit ∧ testState3.lost ≤ 255)
    ∧ (∃ t, step testState3 = .next t) :=
  ⟨test_facts_0.2.2.2.2.2.2.2.2.2.2.2.2.2.2.2.2.2.1,
    test_facts_0.2.2.2.2.2.2.2.2.2.2.2.2.2.2.2.2.2.2.1,
    test_steps test_facts_0.2.2.2.2.2.2.2.2.2.2.2.2.2.2.2.2.1⟩

theorem test_meets_StepKeepsQueuesSound :
    (∀ c : Chan, (testState3.chan c).queue.length ≤ Config.queueDepth)
    ∧ (testState3.queuesShaped)
    ∧ (∃ t, step testState3 = .next t) :=
  ⟨test_facts_0.2.2.2.2.2.2.2.2.2.2.2.2.2.2.2.2.2.2.2,
    test_facts_1.1,
    test_steps test_facts_0.2.2.2.2.2.2.2.2.2.2.2.2.2.2.2.2.1⟩

theorem test_meets_StepKeepsEstopHolding :
    (testState4.estopLatch = true ∧ ∀ c : Chan, (testState4.chan c).state
      = .held ∨ (testState4.chan c).state = .disabled)
    ∧ (∃ t, step testState4 = .next t) :=
  ⟨test_facts_1.2.1,
    test_steps test_facts_1.2.2.1⟩

theorem test_meets_StepKeepsHaltsSettled :
    (testState5.queuesShaped)
    ∧ (testState5.haltsSettled)
    ∧ (testState5.halts ≠ [])
    ∧ (∃ t, step testState5 = .next t) :=
  ⟨test_facts_1.2.2.2.1,
    test_facts_1.2.2.2.2.1,
    test_facts_1.2.2.2.2.2.1,
    test_steps test_facts_1.2.2.2.2.2.2.1⟩

theorem test_meets_StepKeepsIrqFollowing :
    (testState3.irq = (testState3.intCause != 0 && testState3.intEnable))
    ∧ (∃ t, step testState3 = .next t)
    ∧ (testState6.msiEnabled = true ∧ testOn.msiEnabled = false) :=
  ⟨test_facts_1.2.2.2.2.2.2.2.1,
    test_steps test_facts_0.2.2.2.2.2.2.2.2.2.2.2.2.2.2.2.2.1,
    test_facts_1.2.2.2.2.2.2.2.2.1⟩

theorem test_meets_StepKeepsSlotsSound :
    (testState7.slotsSound)
    ∧ (∃ t, step testState7 = .next t) :=
  ⟨test_slots test_facts_1.2.2.2.2.2.2.2.2.2.1,
    test_steps test_facts_1.2.2.2.2.2.2.2.2.2.2.1⟩

theorem test_meets_StepKeepsOutputsSound :
    (testState7.queuesShaped)
    ∧ (testState7.slotsSound)
    ∧ (testState7.outputsSound)
    ∧ (∃ t, step testState7 = .next t) :=
  ⟨test_facts_1.2.2.2.2.2.2.2.2.2.2.2.1,
    test_slots test_facts_1.2.2.2.2.2.2.2.2.2.1,
    test_outputs test_facts_1.2.2.2.2.2.2.2.2.2.2.2.2.1,
    test_steps test_facts_1.2.2.2.2.2.2.2.2.2.2.1⟩

theorem test_meets_IntakeRefusesInOrder :
    (recReq? testBadKind = none)
    ∧ (recReq? (testHalt 1) = some .halt ∧ ReqKind.halt.carriedBy .main = false)
    ∧ (recReq? (testNop.setIfInBounds 20 1) = some .nop ∧ ReqKind.nop.carriedBy .main
      = true ∧ inFields ReqKind.nop.fields 20 = false ∧ blockByte (testNop.setIfInBounds 20 1) 20
      ≠ 0)
    ∧ (∀ i : Fin 64, inFields ReqKind.move.fields i = false → blockByte ((testMove 1).setIfInBounds 1 8) i = 0)
    ∧ (recReq? ((testMove 1).setIfInBounds 1 8) = some .move ∧ ReqKind.move.queuedByChannel
      = true ∧ 8 ≤ recChannel ((testMove 1).setIfInBounds 1 8))
    ∧ (recReq? testNop = some .nop ∧ ¬(ReqKind.nop.queuedByChannel = true ∧ 8 ≤ recChannel testNop))
    ∧ ((testHold .main testBadKind testOn).inReset = false)
    ∧ (takeable (testHold .main testBadKind testOn) .main = some testBadKind
      ∧ intakeRefusal .main testBadKind = some .badKind)
    ∧ ((testHold .main testBadKind testOn).haltsSettled) :=
  ⟨test_facts_1.2.2.2.2.2.2.2.2.2.2.2.2.2.1,
    test_facts_1.2.2.2.2.2.2.2.2.2.2.2.2.2.2.1,
    test_facts_1.2.2.2.2.2.2.2.2.2.2.2.2.2.2.2.1,
    test_facts_1.2.2.2.2.2.2.2.2.2.2.2.2.2.2.2.2.1,
    test_facts_1.2.2.2.2.2.2.2.2.2.2.2.2.2.2.2.2.2.1,
    test_facts_1.2.2.2.2.2.2.2.2.2.2.2.2.2.2.2.2.2.2.1,
    test_facts_1.2.2.2.2.2.2.2.2.2.2.2.2.2.2.2.2.2.2.2,
    test_facts_2.1,
    test_facts_2.2.1⟩

set_option maxRecDepth 4000 in
theorem test_meets_ArbiterJudgesInOrder :
    (State.reset.part ≠ .running)
    ∧ ((testCtrl testResume).part = .running ∧ (testCtrl testResume).ctrlRing.buffer
      = .holding testResume ∧ (testCtrl testResume).mainRing.credits + (testCtrl testResume).ctrlRing.credits
      < 64)
    ∧ (64 ≤ testState8.mainRing.credits + testState8.ctrlRing.credits)
    ∧ (∀ r, (testMoveHeld 5).ctrlRing.buffer ≠ .holding r)
    ∧ ((testMoveHeld 5).mainRing.buffer = .holding (testMove 5) ∧ mainStall (testMoveHeld 5) (testMove 5) = none)
    ∧ (mainStall testIdle testFence = none ∧ mainStall testState9 testFence ≠ none)
    ∧ (56 ≤ testState10.mainRing.credits)
    ∧ (testIdle.mainRing.credits + testIdle.ctrlRing.credits < 64 ∧ testIdle.mainRing.credits
      < 56 ∧ intakeRefusal .main testBadKind ≠ none)
    ∧ (testOn.mainRing.credits + testOn.ctrlRing.credits < 64 ∧ testOn.mainRing.credits
      < 56 ∧ recReq? (testMove 5) = some .move ∧ intakeRefusal .main (testMove 5)
      = none ∧ ownerRefusal .move testOn (testMove 5) ≠ none)
    ∧ (testState9.mainRing.credits + testState9.ctrlRing.credits < 64 ∧ testState9.mainRing.credits
      < 56 ∧ recReq? testFence = some .fence ∧ intakeRefusal .main testFence
      = none ∧ ownerRefusal .fence testState9 testFence = none ∧ 0 < testState9.mainRing.credits)
    ∧ (testFull.mainRing.credits + testFull.ctrlRing.credits < 64 ∧ testFull.mainRing.credits
      < 56 ∧ recReq? (testMove 5) = some .move ∧ intakeRefusal .main (testMove 5)
      = none ∧ ownerRefusal .move testFull (testMove 5) = none ∧ (testFull.chan (recChan (testMove 5))).queue.length
      = 8)
    ∧ (testFull.mainRing.credits + testFull.ctrlRing.credits < 64 ∧ testFull.mainRing.credits
      < 56 ∧ recReq? (testRdv 1 0) = some .rendezvous ∧ intakeRefusal .main (testRdv 1 0)
      = none ∧ ownerRefusal .rendezvous testFull (testRdv 1 0) = none ∧ hasChan (recMask (testRdv 1 0) 8) 0
      = true ∧ (testFull.chan 0).queue.length = 8)
    ∧ (testNoSlot.mainRing.credits + testNoSlot.ctrlRing.credits < 64 ∧ testNoSlot.mainRing.credits
      < 56 ∧ recReq? (testRdv 1 0) = some .rendezvous ∧ intakeRefusal .main (testRdv 1 0)
      = none ∧ ownerRefusal .rendezvous testNoSlot (testRdv 1 0) = none
      ∧ (∀ c, hasChan (recMask (testRdv 1 0) 8) c = true → (testNoSlot.chan c).queue.length
      < 8) ∧ (∀ i : SlotIx, (testNoSlot.slots[i]).isSome = true))
    ∧ (testSyncing.mainRing.credits + testSyncing.ctrlRing.credits < 64
      ∧ testSyncing.mainRing.credits < 56 ∧ recReq? (testRdv 1 1) = some .rendezvous
      ∧ intakeRefusal .main (testRdv 1 1) = none ∧ ownerRefusal .rendezvous testSyncing (testRdv 1 1)
      = none ∧ (∀ c, hasChan (recMask (testRdv 1 1) 8) c = true → (testSyncing.chan c).queue.length
      < 8) ∧ (∃ i : SlotIx, testSyncing.slots[i] = none) ∧ blockByte (testRdv 1 1) 9
      = 1 ∧ externalOpen testSyncing = true)
    ∧ (testIdle.mainRing.credits + testIdle.ctrlRing.credits < 64 ∧ testIdle.mainRing.credits
      < 56 ∧ recReq? (testRdv 1 1) = some .rendezvous ∧ intakeRefusal .main (testRdv 1 1)
      = none ∧ ownerRefusal .rendezvous testIdle (testRdv 1 1) = none ∧ (∃ i : SlotIx, testIdle.slots[i]
      = none) ∧ ¬(blockByte (testRdv 1 1) 9 = 1 ∧ externalOpen testIdle
      = true))
    ∧ (testIdle.mainRing.credits + testIdle.ctrlRing.credits < 64 ∧ testIdle.mainRing.credits
      < 56 ∧ recReq? (testMove 5) = some .move ∧ intakeRefusal .main (testMove 5)
      = none ∧ ownerRefusal .move testIdle (testMove 5) = none ∧ (testIdle.chan (recChan (testMove 5))).queue.length
      < 8)
    ∧ (testIdle.mainRing.credits + testIdle.ctrlRing.credits < 64 ∧ testIdle.mainRing.credits
      < 56 ∧ recReq? testFence = some .fence ∧ intakeRefusal .main testFence
      = none ∧ ownerRefusal .fence testIdle testFence = none ∧ testIdle.mainRing.credits
      = 0)
    ∧ (testIdle.mainRing.credits + testIdle.ctrlRing.credits < 64 ∧ testIdle.mainRing.credits
      < 56 ∧ recReq? testNop = some .nop ∧ intakeRefusal .main testNop = none
      ∧ ownerRefusal .nop testIdle testNop = none) :=
  ⟨test_facts_2.2.2.1,
    test_facts_2.2.2.2.1,
    test_facts_2.2.2.2.2.1,
    test_notHolding test_facts_2.2.2.2.2.2.1,
    test_facts_2.2.2.2.2.2.2.1,
    test_facts_2.2.2.2.2.2.2.2.1,
    test_facts_2.2.2.2.2.2.2.2.2.1,
    test_facts_2.2.2.2.2.2.2.2.2.2.1,
    test_facts_2.2.2.2.2.2.2.2.2.2.2.1,
    test_facts_2.2.2.2.2.2.2.2.2.2.2.2.1,
    test_facts_2.2.2.2.2.2.2.2.2.2.2.2.2.1,
    test_facts_2.2.2.2.2.2.2.2.2.2.2.2.2.2.1,
    test_facts_2.2.2.2.2.2.2.2.2.2.2.2.2.2.2.1,
    test_facts_2.2.2.2.2.2.2.2.2.2.2.2.2.2.2.2.1,
    test_facts_2.2.2.2.2.2.2.2.2.2.2.2.2.2.2.2.2.1,
    test_facts_2.2.2.2.2.2.2.2.2.2.2.2.2.2.2.2.2.2.1,
    test_facts_2.2.2.2.2.2.2.2.2.2.2.2.2.2.2.2.2.2.2.1,
    test_facts_2.2.2.2.2.2.2.2.2.2.2.2.2.2.2.2.2.2.2.2⟩

theorem test_meets_StalledRecordStays :
    ((testHold .main testFence testState9).inReset = false)
    ∧ ((testHold .main testFence testState9).part = .running ∧ ctrlTakeable (testHold .main testFence testState9)
      = none ∧ (testHold .main testFence testState9).mainRing.buffer = .holding testFence
      ∧ mainStall (testHold .main testFence testState9) testFence = some .fence)
    ∧ ((testHold .main testFence testState9).haltsSettled) :=
  ⟨test_facts_3.1,
    test_facts_3.2.1,
    test_facts_3.2.2.1⟩

theorem test_meets_FenceAndNopCompleteAtOnce :
    (Taken (testMain testFence) .main .fence testFence)
    ∧ ((testMain testFence).haltsSettled)
    ∧ (Taken (testMain testNop) .main .nop testNop)
    ∧ ((testMain testNop).haltsSettled)
    ∧ (Taken (testCtrl testNop) .ctrl .nop testNop)
    ∧ ((testCtrl testNop).haltsSettled)
    ∧ (creditFor testState10 .main = false)
    ∧ (testState10.haltsSettled) :=
  ⟨test_taken test_facts_3.2.2.2.1,
    test_facts_3.2.2.2.2.1,
    test_taken test_facts_3.2.2.2.2.2.1,
    test_facts_3.2.2.2.2.2.2.1,
    test_taken test_facts_3.2.2.2.2.2.2.2.1,
    test_facts_3.2.2.2.2.2.2.2.2.1,
    test_facts_3.2.2.2.2.2.2.2.2.2.1,
    test_facts_3.2.2.2.2.2.2.2.2.2.2.1⟩

theorem test_meets_SetProfileWritesOrRefuses :
    (Taken (testMain (testProfile 100)) .main .setProfile (testProfile 100))
    ∧ ((testMain (testProfile 100)).haltsSettled)
    ∧ ((blockByte (testProfile 100) 8).toNat ≤ 15 ∧ 1 ≤ blockField (testProfile 100) 12 4
      ∧ blockField (testProfile 100) 12 4 ≤ blockField (testProfile 100) 16 4
      ∧ blockField (testProfile 100) 16 4 ≤ 400000 ∧ 1 ≤ blockField (testProfile 100) 20 3
      ∧ blockField (testProfile 100) 20 3 ≤ 16777215 ∧ 1 ≤ blockField (testProfile 100) 24 3
      ∧ blockField (testProfile 100) 24 3 ≤ 16777215)
    ∧ ((3 : ProfIx).val = (blockByte (testProfile 100) 8).toNat)
    ∧ (Taken (testMain (testProfile 0)) .main .setProfile (testProfile 0))
    ∧ (¬((blockByte (testProfile 0) 8).toNat ≤ 15 ∧ 1 ≤ blockField (testProfile 0) 12 4
      ∧ blockField (testProfile 0) 12 4 ≤ blockField (testProfile 0) 16 4
      ∧ blockField (testProfile 0) 16 4 ≤ 400000 ∧ 1 ≤ blockField (testProfile 0) 20 3
      ∧ blockField (testProfile 0) 20 3 ≤ 16777215 ∧ 1 ≤ blockField (testProfile 0) 24 3
      ∧ blockField (testProfile 0) 24 3 ≤ 16777215)) :=
  ⟨test_taken test_facts_3.2.2.2.2.2.2.2.2.2.2.2.1,
    test_facts_3.2.2.2.2.2.2.2.2.2.2.2.2.1,
    test_facts_3.2.2.2.2.2.2.2.2.2.2.2.2.2.1,
    test_facts_3.2.2.2.2.2.2.2.2.2.2.2.2.2.2.1,
    test_taken test_facts_3.2.2.2.2.2.2.2.2.2.2.2.2.2.2.2.1,
    test_facts_3.2.2.2.2.2.2.2.2.2.2.2.2.2.2.2.2.1⟩

theorem test_meets_QueuedKindsFieldChecks :
    ((0 : ProfIx).val = (blockByte testChain 10).toNat ∧ testIdle.profiles[(0 : ProfIx)]
      = some { vs := 100, vc := 1000, a := 5000, b := 5000 } ∧ moveMode? (blockByte testChain 8)
      = some .relative ∧ 1000 ≤ (testIdle.chan (recChan testChain)).cfg.maxRate)
    ∧ (blockByte testChain 9 = 1 ∧ 1 ≤ blockField testChain 16 4 ∧ blockField testChain 16 4 ≤ 400000)
    ∧ ((0 : ProfIx).val = (blockByte (testMove 5) 10).toNat ∧ blockByte (testMove 5) 9
      = 0 ∧ blockField (testMove 5) 16 4 = 0)
    ∧ (moveMode? (blockByte (testBlock [(8, 1, 3)]) 8) = none)
    ∧ (15 < (blockByte (testBlock [(10, 1, 16)]) 10).toNat)
    ∧ (testIdle.profiles[(3 : ProfIx)] = none)
    ∧ (((testIdle.modChan 0 fun ch => { ch with cfg := { ch.cfg with maxRate := 999 } }).chan 0).cfg.maxRate < 1000)
    ∧ (blockByte (testBlock [(9, 1, 2)]) 9 ≠ 0 ∧ blockByte (testBlock [(9, 1, 2)]) 9 ≠ 1)
    ∧ (¬(1 ≤ blockField (testBlock [(9, 1, 1)]) 16 4 ∧ blockField (testBlock [(9, 1, 1)]) 16 4 ≤ 400000))
    ∧ (blockByte (testBlock [(16, 4, 1)]) 9 = 0 ∧ blockField (testBlock [(16, 4, 1)]) 16 4 ≠ 0)
    ∧ (blockField (testBlock []) 8 3 = 0 ∧ blockField testDwell 8 3 ≠ 0)
    ∧ (recMask (testBlock [(8, 1, 1), (9, 1, 1)]) 8 &&& recMask (testBlock [(8, 1, 1), (9, 1, 1)]) 9
      ≠ 0 ∧ recMask testMark 8 &&& recMask testMark 9 = 0) :=
  ⟨test_facts_3.2.2.2.2.2.2.2.2.2.2.2.2.2.2.2.2.2.1,
    test_facts_3.2.2.2.2.2.2.2.2.2.2.2.2.2.2.2.2.2.2.1,
    test_facts_3.2.2.2.2.2.2.2.2.2.2.2.2.2.2.2.2.2.2.2,
    test_facts_4.1,
    test_facts_4.2.1,
    test_facts_4.2.2.1,
    test_facts_4.2.2.2.1,
    test_facts_4.2.2.2.2.1,
    test_facts_4.2.2.2.2.2.1,
    test_facts_4.2.2.2.2.2.2.1,
    test_facts_4.2.2.2.2.2.2.2.1,
    test_facts_4.2.2.2.2.2.2.2.2.1⟩

theorem test_meets_QueuedKindsRefused :
    (ReqKind.dwell ∈ [ReqKind.move, .dwell, .setPosition, .mark] ∧ ReqKind.mark ∈ [ReqKind.move, .dwell, .setPosition, .mark])
    ∧ (Taken (testMain ((testMove 5).setIfInBounds 8 3)) .main .move ((testMove 5).setIfInBounds 8 3))
    ∧ ((testMain ((testMove 5).setIfInBounds 8 3)).haltsSettled)
    ∧ (recEntry? .move (testMain ((testMove 5).setIfInBounds 8 3)) ((testMove 5).setIfInBounds 8 3) = none)
    ∧ (Taken (testHold .main testMark testOn) .main .mark testMark)
    ∧ (recEntry? .mark (testHold .main testMark testOn) testMark ≠ none
      ∧ ((testHold .main testMark testOn).chan (recChan testMark)).state
      = .disabled)
    ∧ (Taken (testHold .main testDwell testHeld) .main .dwell testDwell)
    ∧ (recEntry? .dwell (testHold .main testDwell testHeld) testDwell ≠ none
      ∧ ((testHold .main testDwell testHeld).chan (recChan testDwell)).state
      = .held)
    ∧ (Taken (testHold .main testDwell testStopping) .main .dwell testDwell)
    ∧ ((testHold .main testDwell testStopping).haltsSettled)
    ∧ (recEntry? .dwell (testHold .main testDwell testStopping) testDwell
      ≠ none ∧ ((testHold .main testDwell testStopping).chan (recChan testDwell)).state
      = .stopping) :=
  ⟨test_facts_4.2.2.2.2.2.2.2.2.2.1,
    test_taken test_facts_4.2.2.2.2.2.2.2.2.2.2.1,
    test_facts_4.2.2.2.2.2.2.2.2.2.2.2.1,
    test_facts_4.2.2.2.2.2.2.2.2.2.2.2.2.1,
    test_taken test_facts_4.2.2.2.2.2.2.2.2.2.2.2.2.2.1,
    test_facts_4.2.2.2.2.2.2.2.2.2.2.2.2.2.2.1,
    test_taken test_facts_4.2.2.2.2.2.2.2.2.2.2.2.2.2.2.2.1,
    test_facts_4.2.2.2.2.2.2.2.2.2.2.2.2.2.2.2.2.1,
    test_taken test_facts_4.2.2.2.2.2.2.2.2.2.2.2.2.2.2.2.2.2.1,
    test_facts_4.2.2.2.2.2.2.2.2.2.2.2.2.2.2.2.2.2.2.1,
    test_facts_4.2.2.2.2.2.2.2.2.2.2.2.2.2.2.2.2.2.2.2⟩

theorem test_meets_QueuedKindsJoinTheTail :
    (ReqKind.dwell ∈ [ReqKind.move, .dwell, .setPosition, .mark])
    ∧ (Taken (testHold .main testDwell testRunning) .main .dwell testDwell)
    ∧ ((testHold .main testDwell testRunning).haltsSettled)
    ∧ (recEntry? .dwell (testHold .main testDwell testRunning) testDwell
      = some (.dwell 9 10) ∧ ((testHold .main testDwell testRunning).chan (recChan testDwell)).state ∈ [ChanState.running, .dwelling, .waiting]) :=
  ⟨test_facts_5.1,
    test_taken test_facts_5.2.1,
    test_facts_5.2.2.1,
    test_facts_5.2.2.2.1⟩

theorem test_meets_MoveFromIdleSettles :
    (Taken (testMoveHeld 4294967294) .main .move (testMove 4294967294))
    ∧ ((testMoveHeld 4294967294).haltsSettled)
    ∧ ((testMoveHeld 4294967294).queuesShaped)
    ∧ (recEntry? .move (testMoveHeld 4294967294) (testMove 4294967294) = some (.move (testEntry 4294967294))
      ∧ recChan (testMove 4294967294) = 0 ∧ ((testMoveHeld 4294967294).chan 0).state
      = .idle)
    ∧ ((resolveMove (testEntry 4294967294) ((testMoveHeld 4294967294).position 0).toInt).steps
      ≠ 0 ∧ softLimitOk ((testMoveHeld 4294967294).chan 0).cfg (resolveMove (testEntry 4294967294) ((testMoveHeld 4294967294).position 0).toInt).endPos
      = true ∧ limitBlocks ((testMoveHeld 4294967294).chan 0) (resolveMove (testEntry 4294967294) ((testMoveHeld 4294967294).position 0).toInt).positive
      = false)
    ∧ (((testMoveHeld 4294967294).chan 0).pgn.dirHigh ≠ dirLevelFor ((testMoveHeld 4294967294).chan 0).cfg.dirPolarity (resolveMove (testEntry 4294967294) ((testMoveHeld 4294967294).position 0).toInt).positive) :=
  ⟨test_taken test_facts_5.2.2.2.2.1,
    test_facts_5.2.2.2.2.2.1,
    test_facts_5.2.2.2.2.2.2.1,
    test_facts_5.2.2.2.2.2.2.2.1,
    test_facts_5.2.2.2.2.2.2.2.2.1,
    test_facts_5.2.2.2.2.2.2.2.2.2.1⟩

set_option maxRecDepth 4000 in
theorem test_meets_MoveFromIdleSteps :
    (Taken (testMoveHeld 100) .main .move (testMove 100))
    ∧ ((testMoveHeld 100).haltsSettled)
    ∧ ((testMoveHeld 100).queuesShaped)
    ∧ (recEntry? .move (testMoveHeld 100) (testMove 100) = some (.move (testEntry 100))
      ∧ recChan (testMove 100) = 0 ∧ ((testMoveHeld 100).chan 0).state = .idle)
    ∧ ((resolveMove (testEntry 100) ((testMoveHeld 100).position 0).toInt).steps
      ≠ 0 ∧ softLimitOk ((testMoveHeld 100).chan 0).cfg (resolveMove (testEntry 100) ((testMoveHeld 100).position 0).toInt).endPos
      = true ∧ limitBlocks ((testMoveHeld 100).chan 0) (resolveMove (testEntry 100) ((testMoveHeld 100).position 0).toInt).positive
      = false)
    ∧ (((testMoveHeld 100).chan 0).pgn.dirHigh = dirLevelFor ((testMoveHeld 100).chan 0).cfg.dirPolarity (resolveMove (testEntry 100) ((testMoveHeld 100).position 0).toInt).positive)
    ∧ (NoneFires (testMoveHeld 100) 0 1 true)
    ∧ (holdUntil ((testMoveHeld 100).chan 0) ≤ (testMoveHeld 100).now)
    ∧ (Taken ((testMoveHeld 100).modChan 0 fun ch => { ch with pgn := { ch.pgn with stopHold := some 0 } }) .main .move (testMove 100))
    ∧ (((testMoveHeld 100).modChan 0 fun ch => { ch with pgn := { ch.pgn with stopHold := some 0 } }).haltsSettled)
    ∧ (((testMoveHeld 100).modChan 0 fun ch => { ch with pgn := { ch.pgn with stopHold := some 0 } }).queuesShaped)
    ∧ (recEntry? .move ((testMoveHeld 100).modChan 0 fun ch => { ch with pgn := { ch.pgn with stopHold := some 0 } }) (testMove 100)
      = some (.move (testEntry 100)) ∧ recChan (testMove 100) = 0 ∧ (((testMoveHeld 100).modChan 0 fun ch => { ch with pgn := { ch.pgn with stopHold := some 0 } }).chan 0).state
      = .idle)
    ∧ ((resolveMove (testEntry 100) (((testMoveHeld 100).modChan 0 fun ch => { ch with pgn := { ch.pgn with stopHold := some 0 } }).position 0).toInt).steps
      ≠ 0 ∧ softLimitOk (((testMoveHeld 100).modChan 0 fun ch => { ch with pgn := { ch.pgn with stopHold := some 0 } }).chan 0).cfg (resolveMove (testEntry 100) (((testMoveHeld 100).modChan 0 fun ch => { ch with pgn := { ch.pgn with stopHold := some 0 } }).position 0).toInt).endPos
      = true ∧ limitBlocks (((testMoveHeld 100).modChan 0 fun ch => { ch with pgn := { ch.pgn with stopHold := some 0 } }).chan 0) (resolveMove (testEntry 100) (((testMoveHeld 100).modChan 0 fun ch => { ch with pgn := { ch.pgn with stopHold := some 0 } }).position 0).toInt).positive
      = false)
    ∧ ((((testMoveHeld 100).modChan 0 fun ch => { ch with pgn := { ch.pgn with stopHold := some 0 } }).chan 0).pgn.dirHigh
      = dirLevelFor (((testMoveHeld 100).modChan 0 fun ch => { ch with pgn := { ch.pgn with stopHold := some 0 } }).chan 0).cfg.dirPolarity (resolveMove (testEntry 100) (((testMoveHeld 100).modChan 0 fun ch => { ch with pgn := { ch.pgn with stopHold := some 0 } }).position 0).toInt).positive)
    ∧ (NoneFires ((testMoveHeld 100).modChan 0 fun ch => { ch with pgn := { ch.pgn with stopHold := some 0 } }) 0 1 true)
    ∧ (((testMoveHeld 100).modChan 0 fun ch => { ch with pgn := { ch.pgn with stopHold := some 0 } }).now
      < holdUntil (((testMoveHeld 100).modChan 0 fun ch => { ch with pgn := { ch.pgn with stopHold := some 0 } }).chan 0)) :=
  ⟨test_taken test_facts_5.2.2.2.2.2.2.2.2.2.2.1,
    test_facts_5.2.2.2.2.2.2.2.2.2.2.2.1,
    test_facts_5.2.2.2.2.2.2.2.2.2.2.2.2.1,
    test_facts_5.2.2.2.2.2.2.2.2.2.2.2.2.2.1,
    test_facts_5.2.2.2.2.2.2.2.2.2.2.2.2.2.2.1,
    test_facts_5.2.2.2.2.2.2.2.2.2.2.2.2.2.2.2.1,
    test_none test_facts_5.2.2.2.2.2.2.2.2.2.2.2.2.2.2.2.2.1,
    test_facts_5.2.2.2.2.2.2.2.2.2.2.2.2.2.2.2.2.2.1,
    test_taken test_facts_5.2.2.2.2.2.2.2.2.2.2.2.2.2.2.2.2.2.2.1,
    test_facts_5.2.2.2.2.2.2.2.2.2.2.2.2.2.2.2.2.2.2.2,
    test_facts_6.1,
    test_facts_6.2.1,
    test_facts_6.2.2.1,
    test_facts_6.2.2.2.1,
    test_none test_facts_6.2.2.2.2.1,
    test_facts_6.2.2.2.2.2.1⟩

set_option maxRecDepth 4000 in
theorem test_meets_MoveFromIdleFailsOrIsEmpty :
    (Taken (testMoveHeld 0) .main .move (testMove 0))
    ∧ ((testMoveHeld 0).haltsSettled)
    ∧ ((testMoveHeld 0).queuesShaped)
    ∧ (recEntry? .move (testMoveHeld 0) (testMove 0) = some (.move (testEntry 0))
      ∧ recChan (testMove 0) = 0 ∧ ((testMoveHeld 0).chan 0).state = .idle)
    ∧ ((resolveMove (testEntry 0) ((testMoveHeld 0).position 0).toInt).steps = 0)
    ∧ (Taken ((testMoveHeld 100).modChan 0 fun ch => { ch with cfg := { ch.cfg with softMax := 99 } }) .main .move (testMove 100))
    ∧ (((testMoveHeld 100).modChan 0 fun ch => { ch with cfg := { ch.cfg with softMax := 99 } }).haltsSettled)
    ∧ (((testMoveHeld 100).modChan 0 fun ch => { ch with cfg := { ch.cfg with softMax := 99 } }).queuesShaped)
    ∧ (recEntry? .move ((testMoveHeld 100).modChan 0 fun ch => { ch with cfg := { ch.cfg with softMax := 99 } }) (testMove 100)
      = some (.move (testEntry 100)) ∧ recChan (testMove 100) = 0 ∧ (((testMoveHeld 100).modChan 0 fun ch => { ch with cfg := { ch.cfg with softMax := 99 } }).chan 0).state
      = .idle)
    ∧ ((resolveMove (testEntry 100) (((testMoveHeld 100).modChan 0 fun ch => { ch with cfg := { ch.cfg with softMax := 99 } }).position 0).toInt).steps
      ≠ 0 ∧ softLimitOk (((testMoveHeld 100).modChan 0 fun ch => { ch with cfg := { ch.cfg with softMax := 99 } }).chan 0).cfg (resolveMove (testEntry 100) (((testMoveHeld 100).modChan 0 fun ch => { ch with cfg := { ch.cfg with softMax := 99 } }).position 0).toInt).endPos
      = false)
    ∧ (Taken ((testMoveHeld 100).modChan 0 fun ch => { ch with limp := { ch.limp with qualified := true } }) .main .move (testMove 100))
    ∧ (((testMoveHeld 100).modChan 0 fun ch => { ch with limp := { ch.limp with qualified := true } }).haltsSettled)
    ∧ (((testMoveHeld 100).modChan 0 fun ch => { ch with limp := { ch.limp with qualified := true } }).queuesShaped)
    ∧ (recEntry? .move ((testMoveHeld 100).modChan 0 fun ch => { ch with limp := { ch.limp with qualified := true } }) (testMove 100)
      = some (.move (testEntry 100)) ∧ recChan (testMove 100) = 0 ∧ (((testMoveHeld 100).modChan 0 fun ch => { ch with limp := { ch.limp with qualified := true } }).chan 0).state
      = .idle)
    ∧ ((resolveMove (testEntry 100) (((testMoveHeld 100).modChan 0 fun ch => { ch with limp := { ch.limp with qualified := true } }).position 0).toInt).steps
      ≠ 0 ∧ softLimitOk (((testMoveHeld 100).modChan 0 fun ch => { ch with limp := { ch.limp with qualified := true } }).chan 0).cfg (resolveMove (testEntry 100) (((testMoveHeld 100).modChan 0 fun ch => { ch with limp := { ch.limp with qualified := true } }).position 0).toInt).endPos
      = true ∧ limitBlocks (((testMoveHeld 100).modChan 0 fun ch => { ch with limp := { ch.limp with qualified := true } }).chan 0) (resolveMove (testEntry 100) (((testMoveHeld 100).modChan 0 fun ch => { ch with limp := { ch.limp with qualified := true } }).position 0).toInt).positive
      = true) :=
  ⟨test_taken test_facts_6.2.2.2.2.2.2.1,
    test_facts_6.2.2.2.2.2.2.2.1,
    test_facts_6.2.2.2.2.2.2.2.2.1,
    test_facts_6.2.2.2.2.2.2.2.2.2.1,
    test_facts_6.2.2.2.2.2.2.2.2.2.2.1,
    test_taken test_facts_6.2.2.2.2.2.2.2.2.2.2.2.1,
    test_facts_6.2.2.2.2.2.2.2.2.2.2.2.2.1,
    test_facts_6.2.2.2.2.2.2.2.2.2.2.2.2.2.1,
    test_facts_6.2.2.2.2.2.2.2.2.2.2.2.2.2.2.1,
    test_facts_6.2.2.2.2.2.2.2.2.2.2.2.2.2.2.2.1,
    test_taken test_facts_6.2.2.2.2.2.2.2.2.2.2.2.2.2.2.2.2.1,
    test_facts_6.2.2.2.2.2.2.2.2.2.2.2.2.2.2.2.2.2.1,
    test_facts_6.2.2.2.2.2.2.2.2.2.2.2.2.2.2.2.2.2.2.1,
    test_facts_6.2.2.2.2.2.2.2.2.2.2.2.2.2.2.2.2.2.2.2,
    test_facts_7.1⟩

set_option maxRecDepth 4000 in
theorem test_meets_OtherEntriesFromIdle :
    (Taken (testMain testDwell) .main .dwell testDwell)
    ∧ ((testMain testDwell).haltsSettled)
    ∧ ((testMain testDwell).queuesShaped)
    ∧ (((testMain testDwell).chan (recChan testDwell)).state = .idle ∧ blockField testDwell 8 3 ≠ 0)
    ∧ (Taken (testMain testSetPosition) .main .setPosition testSetPosition)
    ∧ ((testMain testSetPosition).haltsSettled)
    ∧ ((testMain testSetPosition).queuesShaped)
    ∧ (((testMain testSetPosition).chan (recChan testSetPosition)).state = .idle)
    ∧ (Taken (testMain testMark) .main .mark testMark)
    ∧ ((testMain testMark).haltsSettled)
    ∧ ((testMain testMark).queuesShaped)
    ∧ (((testMain testMark).chan (recChan testMark)).state = .idle ∧ recMask testMark 8 &&& recMask testMark 9 = 0)
    ∧ ((resolveMove (testEntry 0) (testIdle.position 0).toInt).steps = 0)
    ∧ ((resolveMove (testEntry 100) (testIdle.position 0).toInt).steps ≠ 0
      ∧ softLimitOk (testIdle.chan 0).cfg (resolveMove (testEntry 100) (testIdle.position 0).toInt).endPos
      = true ∧ limitBlocks (testIdle.chan 0) (resolveMove (testEntry 100) (testIdle.position 0).toInt).positive
      = false)
    ∧ ((resolveMove (testEntry 100) ((testIdle.modChan 0 fun ch => { ch with cfg := { ch.cfg with softMax := 99 } }).position 0).toInt).steps
      ≠ 0 ∧ softLimitOk ((testIdle.modChan 0 fun ch => { ch with cfg := { ch.cfg with softMax := 99 } }).chan 0).cfg (resolveMove (testEntry 100) ((testIdle.modChan 0 fun ch => { ch with cfg := { ch.cfg with softMax := 99 } }).position 0).toInt).endPos
      = false)
    ∧ ((resolveMove (testEntry 100) ((testIdle.modChan 0 fun ch => { ch with limp := testPin false true }).position 0).toInt).steps
      ≠ 0 ∧ softLimitOk ((testIdle.modChan 0 fun ch => { ch with limp := testPin false true }).chan 0).cfg (resolveMove (testEntry 100) ((testIdle.modChan 0 fun ch => { ch with limp := testPin false true }).position 0).toInt).endPos
      = true ∧ limitBlocks ((testIdle.modChan 0 fun ch => { ch with limp := testPin false true }).chan 0) (resolveMove (testEntry 100) ((testIdle.modChan 0 fun ch => { ch with limp := testPin false true }).position 0).toInt).positive
      = true) :=
  ⟨test_taken test_facts_7.2.1,
    test_facts_7.2.2.1,
    test_facts_7.2.2.2.1,
    test_facts_7.2.2.2.2.1,
    test_taken test_facts_7.2.2.2.2.2.1,
    test_facts_7.2.2.2.2.2.2.1,
    test_facts_7.2.2.2.2.2.2.2.1,
    test_facts_7.2.2.2.2.2.2.2.2.1,
    test_taken test_facts_7.2.2.2.2.2.2.2.2.2.1,
    test_facts_7.2.2.2.2.2.2.2.2.2.2.1,
    test_facts_7.2.2.2.2.2.2.2.2.2.2.2.1,
    test_facts_7.2.2.2.2.2.2.2.2.2.2.2.2.1,
    test_facts_7.2.2.2.2.2.2.2.2.2.2.2.2.2.1,
    test_facts_7.2.2.2.2.2.2.2.2.2.2.2.2.2.2.1,
    test_facts_7.2.2.2.2.2.2.2.2.2.2.2.2.2.2.2.1,
    test_facts_7.2.2.2.2.2.2.2.2.2.2.2.2.2.2.2.2.1⟩

theorem test_meets_RendezvousRefused :
    (Taken (testMain (testRdv 0 0)) .main .rendezvous (testRdv 0 0))
    ∧ ((testMain (testRdv 0 0)).haltsSettled)
    ∧ (¬(recMask (testRdv 0 0) 8 ≠ 0 ∧ (blockByte (testRdv 0 0) 9 = 0 ∨ blockByte (testRdv 0 0) 9
      = 1) ∧ blockField (testRdv 0 0) 12 4 ≤ 65535))
    ∧ (Taken (testMain (testRdv 3 0)) .main .rendezvous (testRdv 3 0))
    ∧ (recMask (testRdv 3 0) 8 ≠ 0 ∧ (blockByte (testRdv 3 0) 9 = 0 ∨ blockByte (testRdv 3 0) 9
      = 1) ∧ blockField (testRdv 3 0) 12 4 ≤ 65535)
    ∧ ((maskOf fun c => hasChan (recMask (testRdv 3 0) 8) c && !((testMain (testRdv 3 0)).chan c).isOpen) ≠ 0)
    ∧ (∃ c, hasChan (recMask (testRdv 3 0) 8) c = true ∧ ((testMain (testRdv 3 0)).chan c).state = .disabled)
    ∧ (Taken (testHold .main (testRdv 1 0) testHeld) .main .rendezvous (testRdv 1 0))
    ∧ ((testHold .main (testRdv 1 0) testHeld).haltsSettled)
    ∧ ((maskOf fun c => hasChan (recMask (testRdv 1 0) 8) c && !((testHold .main (testRdv 1 0) testHeld).chan c).isOpen)
      ≠ 0)
    ∧ (∀ c, hasChan (recMask (testRdv 1 0) 8) c = true → ((testHold .main (testRdv 1 0) testHeld).chan c).state
      ≠ .disabled) :=
  ⟨test_taken test_facts_7.2.2.2.2.2.2.2.2.2.2.2.2.2.2.2.2.2.1,
    test_facts_7.2.2.2.2.2.2.2.2.2.2.2.2.2.2.2.2.2.2.1,
    test_facts_7.2.2.2.2.2.2.2.2.2.2.2.2.2.2.2.2.2.2.2,
    test_taken test_facts_8.1,
    test_facts_8.2.1,
    test_facts_8.2.2.1,
    test_facts_8.2.2.2.1,
    test_taken test_facts_8.2.2.2.2.1,
    test_facts_8.2.2.2.2.2.1,
    test_facts_8.2.2.2.2.2.2.1,
    test_facts_8.2.2.2.2.2.2.2.1⟩

set_option maxRecDepth 4000 in
theorem test_meets_RendezvousOpensAndGathers :
    (Taken (testHold .main (testRdv 1 1) testRunning) .main .rendezvous (testRdv 1 1))
    ∧ ((testHold .main (testRdv 1 1) testRunning).haltsSettled)
    ∧ ((testHold .main (testRdv 1 1) testRunning).queuesShaped)
    ∧ (rendezvousFieldsOk (testRdv 1 1) = true)
    ∧ (∀ c, hasChan (recMask (testRdv 1 1) 8) c = true → ((testHold .main (testRdv 1 1) testRunning).chan c).state ∈ [ChanState.idle, .running, .dwelling, .waiting])
    ∧ (∃ c, hasChan (recMask (testRdv 1 1) 8) c = true ∧ ((testHold .main (testRdv 1 1) testRunning).chan c).state
      ≠ .idle)
    ∧ ((testHold .main (testRdv 1 1) testRunning).slots[(0 : SlotIx)] = none
      ∧ ∀ j : SlotIx, j < 0 → ((testHold .main (testRdv 1 1) testRunning).slots[j]).isSome
      = true)
    ∧ (Taken (testHold .main (testRdv 3 0) testMixed) .main .rendezvous (testRdv 3 0))
    ∧ ((testHold .main (testRdv 3 0) testMixed).haltsSettled)
    ∧ ((testHold .main (testRdv 3 0) testMixed).queuesShaped)
    ∧ (rendezvousFieldsOk (testRdv 3 0) = true)
    ∧ (∀ c, hasChan (recMask (testRdv 3 0) 8) c = true → ((testHold .main (testRdv 3 0) testMixed).chan c).state ∈ [ChanState.idle, .running, .dwelling, .waiting])
    ∧ (∃ c, hasChan (recMask (testRdv 3 0) 8) c = true ∧ ((testHold .main (testRdv 3 0) testMixed).chan c).state
      ≠ .idle)
    ∧ ((testHold .main (testRdv 3 0) testMixed).slots[(0 : SlotIx)] = none
      ∧ ∀ j : SlotIx, j < 0 → ((testHold .main (testRdv 3 0) testMixed).slots[j]).isSome
      = true)
    ∧ (Taken (testHold .main (testRdv 3 1) testMixed) .main .rendezvous (testRdv 3 1))
    ∧ ((testHold .main (testRdv 3 1) testMixed).haltsSettled)
    ∧ ((testHold .main (testRdv 3 1) testMixed).queuesShaped)
    ∧ (rendezvousFieldsOk (testRdv 3 1) = true)
    ∧ (∀ c, hasChan (recMask (testRdv 3 1) 8) c = true → ((testHold .main (testRdv 3 1) testMixed).chan c).state ∈ [ChanState.idle, .running, .dwelling, .waiting])
    ∧ (∃ c, hasChan (recMask (testRdv 3 1) 8) c = true ∧ ((testHold .main (testRdv 3 1) testMixed).chan c).state
      ≠ .idle)
    ∧ ((testHold .main (testRdv 3 1) testMixed).slots[(0 : SlotIx)] = none
      ∧ ∀ j : SlotIx, j < 0 → ((testHold .main (testRdv 3 1) testMixed).slots[j]).isSome
      = true)
    ∧ (testIdle.slots[(0 : SlotIx)] = none)
    ∧ (∃ sl ∈ testGathering.slots[(0 : SlotIx)], hasChan sl.members 2 = false ∧ hasChan sl.arrived 0 = true)
    ∧ (∃ sl ∈ testOpened.slots[(0 : SlotIx)], sl.state = .opened ∧ sl.timeout
      = 5 ∧ hasChan sl.members 0 = true ∧ hasChan sl.arrived 0 = false ∧ sl.arrived ||| chanBit 0
      ≠ sl.members)
    ∧ (∃ sl ∈ testUntimed.slots[(0 : SlotIx)], sl.state = .opened ∧ sl.timeout
      = 0 ∧ hasChan sl.members 0 = true ∧ hasChan sl.arrived 0 = false ∧ sl.arrived ||| chanBit 0
      ≠ sl.members)
    ∧ (∃ sl ∈ testThree.slots[(0 : SlotIx)], sl.state = .gathering ∧ hasChan sl.members 1
      = true ∧ hasChan sl.arrived 1 = false ∧ sl.arrived ||| chanBit 1 ≠ sl.members)
    ∧ (∃ sl ∈ testGathering.slots[(0 : SlotIx)], hasChan sl.members 1 = true
      ∧ hasChan sl.arrived 1 = false ∧ sl.arrived ||| chanBit 1 = sl.members
      ∧ sl.external = false)
    ∧ (∃ sl ∈ testGatheringX.slots[(0 : SlotIx)], hasChan sl.members 1 = true
      ∧ hasChan sl.arrived 1 = false ∧ sl.arrived ||| chanBit 1 = sl.members
      ∧ sl.external = true)
    ∧ ((testAt 900 (testOpened.modChan 0 fun ch => { ch with pgn := { ch.pgn with remaining := 0, schedule := none, pulseEnd := none, lastEnd := some 900 } })).inReset
      = false)
    ∧ ((testAt 900 (testOpened.modChan 0 fun ch => { ch with pgn := { ch.pgn with remaining := 0, schedule := none, pulseEnd := none, lastEnd := some 900 } })).haltsSettled)
    ∧ (∃ sl ∈ (testAt 900 (testOpened.modChan 0 fun ch => { ch with pgn := { ch.pgn with remaining := 0, schedule := none, pulseEnd := none, lastEnd := some 900 } })).slots[(0 : SlotIx)], hasChan sl.members 0
      = true ∧ hasChan sl.arrived 0 = false ∧ sl.arrived ||| chanBit 0 ≠ sl.members)
    ∧ (((testAt 900 (testOpened.modChan 0 fun ch => { ch with pgn := { ch.pgn with remaining := 0, schedule := none, pulseEnd := none, lastEnd := some 900 } })).chan 0).state
      = .running ∧ ((testAt 900 (testOpened.modChan 0 fun ch => { ch with pgn := { ch.pgn with remaining := 0, schedule := none, pulseEnd := none, lastEnd := some 900 } })).chan 0).queue
      = .move (testEntry 100) :: .marker 0 :: [] ∧ ((testAt 900 (testOpened.modChan 0 fun ch => { ch with pgn := { ch.pgn with remaining := 0, schedule := none, pulseEnd := none, lastEnd := some 900 } })).chan 0).headBound
      = false ∧ ((testAt 900 (testOpened.modChan 0 fun ch => { ch with pgn := { ch.pgn with remaining := 0, schedule := none, pulseEnd := none, lastEnd := some 900 } })).chan 0).pgn.remaining
      = 0 ∧ ((testAt 900 (testOpened.modChan 0 fun ch => { ch with pgn := { ch.pgn with remaining := 0, schedule := none, pulseEnd := none, lastEnd := some 900 } })).chan 0).pgn.lastEnd
      = some 900 ∧ 900 ≤ (testAt 900 (testOpened.modChan 0 fun ch => { ch with pgn := { ch.pgn with remaining := 0, schedule := none, pulseEnd := none, lastEnd := some 900 } })).now)
    ∧ ((testAt 400 (testAfter (.rendezvous .main) (testHold .main (testRdv 3 0) (testDwelling.setChan 1 (testRunning.chan 0))))).inReset
      = false)
    ∧ ((testAt 400 (testAfter (.rendezvous .main) (testHold .main (testRdv 3 0) (testDwelling.setChan 1 (testRunning.chan 0))))).haltsSettled)
    ∧ (∃ sl ∈ (testAt 400 (testAfter (.rendezvous .main) (testHold .main (testRdv 3 0) (testDwelling.setChan 1 (testRunning.chan 0))))).slots[(0 : SlotIx)], hasChan sl.members 0
      = true ∧ hasChan sl.arrived 0 = false ∧ sl.arrived ||| chanBit 0 ≠ sl.members)
    ∧ (((testAt 400 (testAfter (.rendezvous .main) (testHold .main (testRdv 3 0) (testDwelling.setChan 1 (testRunning.chan 0))))).chan 0).state
      = .dwelling ∧ ((testAt 400 (testAfter (.rendezvous .main) (testHold .main (testRdv 3 0) (testDwelling.setChan 1 (testRunning.chan 0))))).chan 0).queue
      = .dwell 9 10 :: .marker 0 :: [] ∧ ((testAt 400 (testAfter (.rendezvous .main) (testHold .main (testRdv 3 0) (testDwelling.setChan 1 (testRunning.chan 0))))).chan 0).dwellStart
      = some 0 ∧ 0 + 40 * 10 ≤ (testAt 400 (testAfter (.rendezvous .main) (testHold .main (testRdv 3 0) (testDwelling.setChan 1 (testRunning.chan 0))))).now) :=
  ⟨test_taken test_facts_8.2.2.2.2.2.2.2.2.1,
    test_facts_8.2.2.2.2.2.2.2.2.2.1,
    test_facts_8.2.2.2.2.2.2.2.2.2.2.1,
    test_facts_8.2.2.2.2.2.2.2.2.2.2.2.1,
    test_facts_8.2.2.2.2.2.2.2.2.2.2.2.2.1,
    test_facts_8.2.2.2.2.2.2.2.2.2.2.2.2.2.1,
    test_facts_8.2.2.2.2.2.2.2.2.2.2.2.2.2.2.1,
    test_taken test_facts_8.2.2.2.2.2.2.2.2.2.2.2.2.2.2.2.1,
    test_facts_8.2.2.2.2.2.2.2.2.2.2.2.2.2.2.2.2.1,
    test_facts_8.2.2.2.2.2.2.2.2.2.2.2.2.2.2.2.2.2.1,
    test_facts_8.2.2.2.2.2.2.2.2.2.2.2.2.2.2.2.2.2.2.1,
    test_facts_8.2.2.2.2.2.2.2.2.2.2.2.2.2.2.2.2.2.2.2,
    test_facts_9.1,
    test_facts_9.2.1,
    test_taken test_facts_9.2.2.1,
    test_facts_9.2.2.2.1,
    test_facts_9.2.2.2.2.1,
    test_facts_9.2.2.2.2.2.1,
    test_facts_9.2.2.2.2.2.2.1,
    test_facts_9.2.2.2.2.2.2.2.1,
    test_facts_9.2.2.2.2.2.2.2.2.1,
    test_facts_9.2.2.2.2.2.2.2.2.2.1,
    test_facts_9.2.2.2.2.2.2.2.2.2.2.1,
    test_facts_9.2.2.2.2.2.2.2.2.2.2.2.1,
    test_facts_9.2.2.2.2.2.2.2.2.2.2.2.2.1,
    test_facts_9.2.2.2.2.2.2.2.2.2.2.2.2.2.1,
    test_facts_9.2.2.2.2.2.2.2.2.2.2.2.2.2.2.1,
    test_facts_9.2.2.2.2.2.2.2.2.2.2.2.2.2.2.2.1,
    test_facts_9.2.2.2.2.2.2.2.2.2.2.2.2.2.2.2.2.1,
    test_facts_9.2.2.2.2.2.2.2.2.2.2.2.2.2.2.2.2.2.1,
    test_facts_9.2.2.2.2.2.2.2.2.2.2.2.2.2.2.2.2.2.2.1,
    test_facts_9.2.2.2.2.2.2.2.2.2.2.2.2.2.2.2.2.2.2.2,
    test_facts_10.1,
    test_facts_10.2.1,
    test_facts_10.2.2.1,
    test_facts_10.2.2.2.1⟩

theorem test_meets_RendezvousOfIdleMembers :
    (Taken (testHold .main (testRdv 3 0) testTwo) .main .rendezvous (testRdv 3 0))
    ∧ ((testHold .main (testRdv 3 0) testTwo).haltsSettled)
    ∧ ((testHold .main (testRdv 3 0) testTwo).queuesShaped)
    ∧ (rendezvousFieldsOk (testRdv 3 0) = true ∧ blockByte (testRdv 3 0) 9 = 0)
    ∧ (∀ c, hasChan (recMask (testRdv 3 0) 8) c = true → ((testHold .main (testRdv 3 0) testTwo).chan c).state
      = .idle)
    ∧ ((testHold .main (testRdv 3 0) testTwo).slots[(0 : SlotIx)] = none
      ∧ (0 : SlotIx) ∉ (testHold .main (testRdv 3 0) testTwo).openList ∧ ∀ j : SlotIx, j
      < 0 → ((testHold .main (testRdv 3 0) testTwo).slots[j]).isSome = true)
    ∧ (Taken (testHold .main (testRdv 3 1) testTwo) .main .rendezvous (testRdv 3 1))
    ∧ ((testHold .main (testRdv 3 1) testTwo).haltsSettled)
    ∧ ((testHold .main (testRdv 3 1) testTwo).queuesShaped)
    ∧ (rendezvousFieldsOk (testRdv 3 1) = true ∧ blockByte (testRdv 3 1) 9 = 1)
    ∧ (∀ c, hasChan (recMask (testRdv 3 1) 8) c = true → ((testHold .main (testRdv 3 1) testTwo).chan c).state
      = .idle)
    ∧ ((testHold .main (testRdv 3 1) testTwo).slots[(0 : SlotIx)] = none
      ∧ (0 : SlotIx) ∉ (testHold .main (testRdv 3 1) testTwo).openList ∧ ∀ j : SlotIx, j
      < 0 → ((testHold .main (testRdv 3 1) testTwo).slots[j]).isSome = true) :=
  ⟨test_taken test_facts_10.2.2.2.2.1,
    test_facts_10.2.2.2.2.2.1,
    test_facts_10.2.2.2.2.2.2.1,
    test_facts_10.2.2.2.2.2.2.2.1,
    test_facts_10.2.2.2.2.2.2.2.2.1,
    test_facts_10.2.2.2.2.2.2.2.2.2.1,
    test_taken test_facts_10.2.2.2.2.2.2.2.2.2.2.1,
    test_facts_10.2.2.2.2.2.2.2.2.2.2.2.1,
    test_facts_10.2.2.2.2.2.2.2.2.2.2.2.2.1,
    test_facts_10.2.2.2.2.2.2.2.2.2.2.2.2.2.1,
    test_facts_10.2.2.2.2.2.2.2.2.2.2.2.2.2.2.1,
    test_facts_10.2.2.2.2.2.2.2.2.2.2.2.2.2.2.2.1⟩

set_option maxRecDepth 4000 in
theorem test_meets_HaltOrderActsByState :
    (StopMode.abrupt ≠ .none ∧ StopMode.decel ≠ .none)
    ∧ ((testOn.chan 0).shaped = true ∧ (testOn.chan 0).state = .disabled)
    ∧ ((testHeld.chan 0).shaped = true ∧ (testHeld.chan 0).state = .held)
    ∧ ((testIdle.chan 0).shaped = true ∧ (testIdle.chan 0).state = .idle)
    ∧ ((testDwelling.chan 0).shaped = true ∧ (testDwelling.chan 0).state = .dwelling)
    ∧ ((testDwelling.chan 0).queue = .dwell 9 10 :: [] ∧ (testDwelling.chan 0).dwellStart = some 0)
    ∧ ((testWaiting.chan 0).shaped = true ∧ (testWaiting.chan 0).state = .waiting)
    ∧ ((testWaiting.chan 0).queue = .marker 0 :: [])
    ∧ ((testFull.chan 0).shaped = true ∧ (testFull.chan 0).state = .running)
    ∧ ((testFull.chan 0).queue = .move (testEntry 100) :: List.replicate 7 (.dwell 1 1)
      ∧ (testFull.chan 0).pgn.pulseEnd ≠ none ∧ (testFull.chan 0).pgn.emitted
      ≠ 0 ∧ (testFull.chan 0).binding = .notChained ∧ (testFull.chan 0).pgn.rateSq
      ≤ (testEntry 100).profile.vs ^ 2)
    ∧ ((testStepNext.chan 0).shaped = true ∧ (testStepNext.chan 0).state = .running)
    ∧ ((testStepNext.chan 0).queue = .move (testEntry 100) :: [] ∧ (testStepNext.chan 0).pgn.pulseEnd = none)
    ∧ ((testSettling.chan 0).shaped = true ∧ (testSettling.chan 0).state = .running)
    ∧ ((testSettling.chan 0).queue = .move (testEntry 4294967294) :: [] ∧ (testSettling.chan 0).pgn.emitted = 0)
    ∧ ((testSecond.chan 0).shaped = true ∧ (testSecond.chan 0).state = .running)
    ∧ ((testSecond.chan 0).queue = .move (testEntry 100) :: [] ∧ (testSecond.chan 0).pgn.emitted
      ≠ 0 ∧ ¬((testSecond.chan 0).pgn.remaining = 0 ∨ (testSecond.chan 0).pgn.rateSq
      ≤ (testEntry 100).profile.vs ^ 2))
    ∧ ((testPending.chan 0).shaped = true ∧ (testPending.chan 0).state = .running)
    ∧ ((testPending.chan 0).queue = .move testChainEntry :: [] ∧ (testPending.chan 0).pgn.emitted
      ≠ 0 ∧ (testPending.chan 0).binding ≠ .notChained ∧ (testPending.chan 0).binding
      ≠ .unbound)
    ∧ ((testStopping.chan 0).shaped = true ∧ (testStopping.chan 0).state = .stopping)
    ∧ ((testStopping.chan 0).queue = .move (testEntry 100) :: []) :=
  ⟨test_facts_10.2.2.2.2.2.2.2.2.2.2.2.2.2.2.2.2.1,
    test_facts_10.2.2.2.2.2.2.2.2.2.2.2.2.2.2.2.2.2.1,
    test_facts_10.2.2.2.2.2.2.2.2.2.2.2.2.2.2.2.2.2.2.1,
    test_facts_10.2.2.2.2.2.2.2.2.2.2.2.2.2.2.2.2.2.2.2,
    test_facts_11.1,
    test_facts_11.2.1,
    test_facts_11.2.2.1,
    test_facts_11.2.2.2.1,
    test_facts_11.2.2.2.2.1,
    test_facts_11.2.2.2.2.2.1,
    test_facts_11.2.2.2.2.2.2.1,
    test_facts_11.2.2.2.2.2.2.2.1,
    test_facts_11.2.2.2.2.2.2.2.2.1,
    test_facts_11.2.2.2.2.2.2.2.2.2.1,
    test_facts_11.2.2.2.2.2.2.2.2.2.2.1,
    test_facts_11.2.2.2.2.2.2.2.2.2.2.2.1,
    test_facts_11.2.2.2.2.2.2.2.2.2.2.2.2.1,
    test_facts_11.2.2.2.2.2.2.2.2.2.2.2.2.2.1,
    test_facts_11.2.2.2.2.2.2.2.2.2.2.2.2.2.2.1,
    test_facts_11.2.2.2.2.2.2.2.2.2.2.2.2.2.2.2.1⟩

set_option maxRecDepth 4000 in
theorem test_meets_HaltStopsNamedChannels :
    (Taken (testHold .ctrl (testHalt 0) testRunning) .ctrl .halt (testHalt 0))
    ∧ ((testHold .ctrl (testHalt 0) testRunning).haltsSettled)
    ∧ ((testHold .ctrl (testHalt 0) testRunning).queuesShaped)
    ∧ (haltMode? (blockByte (testHalt 0) 9) = none)
    ∧ (Taken (testHold .ctrl (testHalt 1) testRunning) .ctrl .halt (testHalt 1))
    ∧ ((testHold .ctrl (testHalt 1) testRunning).haltsSettled)
    ∧ ((testHold .ctrl (testHalt 1) testRunning).queuesShaped)
    ∧ (haltMode? (blockByte (testHalt 1) 9) = some .decel)
    ∧ (Taken (testHold .ctrl (testHalt 2) testRunning) .ctrl .halt (testHalt 2))
    ∧ ((testHold .ctrl (testHalt 2) testRunning).haltsSettled)
    ∧ ((testHold .ctrl (testHalt 2) testRunning).queuesShaped)
    ∧ (haltMode? (blockByte (testHalt 2) 9) = some .abrupt)
    ∧ (Taken (testCtrl (testHalt 1)) .ctrl .halt (testHalt 1))
    ∧ (∀ c, hasChan (recMask (testHalt 1) 8) c = true → restedHalted ((testAfter (.halt .ctrl) (testCtrl (testHalt 1))).chan c)
      = true)
    ∧ (∃ c, hasChan (recMask (testHalt 2) 8) c = true ∧ restedHalted (testPulseHeld.chan c) = false)
    ∧ (Taken (testHold .ctrl (testHalt 2) testWaiting) .ctrl .halt (testHalt 2))
    ∧ ((testHold .ctrl (testHalt 2) testWaiting).haltsSettled)
    ∧ ((testHold .ctrl (testHalt 2) testWaiting).queuesShaped)
    ∧ ((testHold .ctrl (testHalt 2) testWaiting).estopLatch = false ∧ (testHold .ctrl (testHalt 2) testRunning).estopLatch
      = false)
    ∧ (∀ (c : Chan) (i : SlotIx), hasChan (recMask (testHalt 2) 8) c = true
      → Entry.marker i ∉ ((testHold .ctrl (testHalt 2) testRunning).chan c).queue)
    ∧ (∃ c : Chan, hasChan (recMask (testHalt 2) 8) c = true ∧ Entry.marker 0 ∈ (testWaiting.chan c).queue)
    ∧ (∃ c : Chan, hasChan (recMask (testHalt 2) 8) c = false ∧ ∃ sl ∈ testWaiting.slots[(0 : SlotIx)], hasChan sl.members c
      = true)
    ∧ (∃ c : Chan, hasChan (recMask (testHalt 2) 8) c = false ∧ ∀ i : SlotIx, ∀ sl ∈ testWaiting.slots[i], hasChan sl.members c
      = false) :=
  ⟨test_taken test_facts_11.2.2.2.2.2.2.2.2.2.2.2.2.2.2.2.2.1,
    test_facts_11.2.2.2.2.2.2.2.2.2.2.2.2.2.2.2.2.2.1,
    test_facts_11.2.2.2.2.2.2.2.2.2.2.2.2.2.2.2.2.2.2.1,
    test_facts_11.2.2.2.2.2.2.2.2.2.2.2.2.2.2.2.2.2.2.2,
    test_taken test_facts_12.1,
    test_facts_12.2.1,
    test_facts_12.2.2.1,
    test_facts_12.2.2.2.1,
    test_taken test_facts_12.2.2.2.2.1,
    test_facts_12.2.2.2.2.2.1,
    test_facts_12.2.2.2.2.2.2.1,
    test_facts_12.2.2.2.2.2.2.2.1,
    test_taken test_facts_12.2.2.2.2.2.2.2.2.1,
    test_facts_12.2.2.2.2.2.2.2.2.2.1,
    test_facts_12.2.2.2.2.2.2.2.2.2.2.1,
    test_taken test_facts_12.2.2.2.2.2.2.2.2.2.2.2.1,
    test_facts_12.2.2.2.2.2.2.2.2.2.2.2.2.1,
    test_facts_12.2.2.2.2.2.2.2.2.2.2.2.2.2.1,
    test_facts_12.2.2.2.2.2.2.2.2.2.2.2.2.2.2.1,
    test_facts_12.2.2.2.2.2.2.2.2.2.2.2.2.2.2.2.1,
    test_facts_12.2.2.2.2.2.2.2.2.2.2.2.2.2.2.2.2.1,
    test_facts_12.2.2.2.2.2.2.2.2.2.2.2.2.2.2.2.2.2.1,
    test_facts_12.2.2.2.2.2.2.2.2.2.2.2.2.2.2.2.2.2.2.1⟩

theorem test_meets_ResumeMakesIdle :
    (Taken (testHold .ctrl testResume testHeld) .ctrl .resume testResume)
    ∧ ((testHold .ctrl testResume testHeld).haltsSettled)
    ∧ ((testHold .ctrl testResume testHeld).estopLatch = false)
    ∧ (Taken (testHold .ctrl testResume testState11) .ctrl .resume testResume)
    ∧ ((testHold .ctrl testResume testState11).haltsSettled)
    ∧ ((testHold .ctrl testResume testState11).estopLatch = true) :=
  ⟨test_taken test_facts_12.2.2.2.2.2.2.2.2.2.2.2.2.2.2.2.2.2.2.2,
    test_facts_13.1,
    test_facts_13.2.1,
    test_taken test_facts_13.2.2.1,
    test_facts_13.2.2.2.1,
    test_facts_13.2.2.2.2.1⟩

set_option maxRecDepth 4000 in
theorem test_meets_OverrideRateRefusedOrAccepted :
    (Taken (testHold .ctrl (testOverride 8 600) testRunning) .ctrl .overrideRate (testOverride 8 600))
    ∧ ((testHold .ctrl (testOverride 8 600) testRunning).haltsSettled)
    ∧ ((testHold .ctrl (testOverride 8 600) testRunning).queuesShaped)
    ∧ (7 < recChannel (testOverride 8 600))
    ∧ (Taken (testHold .ctrl (testOverride 0 0) testRunning) .ctrl .overrideRate (testOverride 0 0))
    ∧ ((testHold .ctrl (testOverride 0 0) testRunning).haltsSettled)
    ∧ ((testHold .ctrl (testOverride 0 0) testRunning).queuesShaped)
    ∧ (recChannel (testOverride 0 0) ≤ 7 ∧ ¬(1 ≤ blockField (testOverride 0 0) 8 4
      ∧ blockField (testOverride 0 0) 8 4 ≤ 400000))
    ∧ (Taken (testHold .ctrl (testOverride 0 600) testIdle) .ctrl .overrideRate (testOverride 0 600))
    ∧ ((testHold .ctrl (testOverride 0 600) testIdle).haltsSettled)
    ∧ ((testHold .ctrl (testOverride 0 600) testIdle).queuesShaped)
    ∧ (1 ≤ blockField (testOverride 0 600) 8 4 ∧ blockField (testOverride 0 600) 8 4
      ≤ 400000 ∧ ((testHold .ctrl (testOverride 0 600) testIdle).chan (recChan (testOverride 0 600))).state
      ≠ .running)
    ∧ (Taken (testHold .ctrl (testOverride 0 600) (testStepWith fun p => { p with phase := .final })) .ctrl .overrideRate (testOverride 0 600))
    ∧ ((testHold .ctrl (testOverride 0 600) (testStepWith fun p => { p with phase := .final })).haltsSettled)
    ∧ ((testHold .ctrl (testOverride 0 600) (testStepWith fun p => { p with phase := .final })).queuesShaped)
    ∧ (((testHold .ctrl (testOverride 0 600) (testStepWith fun p => { p with phase := .final })).chan (recChan (testOverride 0 600))).state
      = .running ∧ ((testHold .ctrl (testOverride 0 600) (testStepWith fun p => { p with phase := .final })).chan (recChan (testOverride 0 600))).pgn.phase
      = .final)
    ∧ (Taken (testHold .ctrl (testOverride 0 99) testRunning) .ctrl .overrideRate (testOverride 0 99))
    ∧ ((testHold .ctrl (testOverride 0 99) testRunning).haltsSettled)
    ∧ ((testHold .ctrl (testOverride 0 99) testRunning).queuesShaped)
    ∧ (((testHold .ctrl (testOverride 0 99) testRunning).chan (recChan (testOverride 0 99))).state
      = .running ∧ ((testHold .ctrl (testOverride 0 99) testRunning).chan (recChan (testOverride 0 99))).pgn.phase
      ≠ .final ∧ ((testHold .ctrl (testOverride 0 99) testRunning).chan (recChan (testOverride 0 99))).headMove?
      = some (testEntry 100) ∧ blockField (testOverride 0 99) 8 4 < (testEntry 100).profile.vs)
    ∧ (Taken (testHold .ctrl (testOverride 0 600) testRunning) .ctrl .overrideRate (testOverride 0 600))
    ∧ ((testHold .ctrl (testOverride 0 600) testRunning).haltsSettled)
    ∧ ((testHold .ctrl (testOverride 0 600) testRunning).queuesShaped)
    ∧ (recChannel (testOverride 0 600) ≤ 7 ∧ 1 ≤ blockField (testOverride 0 600) 8 4
      ∧ blockField (testOverride 0 600) 8 4 ≤ 400000 ∧ ((testHold .ctrl (testOverride 0 600) testRunning).chan (recChan (testOverride 0 600))).state
      = .running ∧ ((testHold .ctrl (testOverride 0 600) testRunning).chan (recChan (testOverride 0 600))).headMove?
      = some (testEntry 100) ∧ ((testHold .ctrl (testOverride 0 600) testRunning).chan (recChan (testOverride 0 600))).pgn.phase
      ≠ .final ∧ (testEntry 100).profile.vs ≤ blockField (testOverride 0 600) 8 4
      ∧ blockField (testOverride 0 600) 8 4 ≤ ((testHold .ctrl (testOverride 0 600) testRunning).chan (recChan (testOverride 0 600))).cfg.maxRate)
    ∧ (((testHold .ctrl (testOverride 0 600) testRunning).chan (recChan (testOverride 0 600))).headBound = false)
    ∧ (Taken (testHold .ctrl (testOverride 0 600) testBound) .ctrl .overrideRate (testOverride 0 600))
    ∧ ((testHold .ctrl (testOverride 0 600) testBound).haltsSettled)
    ∧ ((testHold .ctrl (testOverride 0 600) testBound).queuesShaped)
    ∧ (((testHold .ctrl (testOverride 0 600) testBound).chan (recChan (testOverride 0 600))).headMove?
      = some testEntry12 ∧ ((testHold .ctrl (testOverride 0 600) testBound).chan (recChan (testOverride 0 600))).pgn.phase
      ≠ .final ∧ ((testHold .ctrl (testOverride 0 600) testBound).chan (recChan (testOverride 0 600))).binding
      = .bound 500 100 1 { endPos := 150, steps := 50, positive := true }
      ∧ ((testHold .ctrl (testOverride 0 600) testBound).chan (recChan (testOverride 0 600))).queue[1]?
      = some (.move (testEntry 50))) :=
  ⟨test_taken test_facts_13.2.2.2.2.2.1,
    test_facts_13.2.2.2.2.2.2.1,
    test_facts_13.2.2.2.2.2.2.2.1,
    test_facts_13.2.2.2.2.2.2.2.2.1,
    test_taken test_facts_13.2.2.2.2.2.2.2.2.2.1,
    test_facts_13.2.2.2.2.2.2.2.2.2.2.1,
    test_facts_13.2.2.2.2.2.2.2.2.2.2.2.1,
    test_facts_13.2.2.2.2.2.2.2.2.2.2.2.2.1,
    test_taken test_facts_13.2.2.2.2.2.2.2.2.2.2.2.2.2.1,
    test_facts_13.2.2.2.2.2.2.2.2.2.2.2.2.2.2.1,
    test_facts_13.2.2.2.2.2.2.2.2.2.2.2.2.2.2.2.1,
    test_facts_13.2.2.2.2.2.2.2.2.2.2.2.2.2.2.2.2.1,
    test_taken test_facts_13.2.2.2.2.2.2.2.2.2.2.2.2.2.2.2.2.2.1,
    test_facts_13.2.2.2.2.2.2.2.2.2.2.2.2.2.2.2.2.2.2.1,
    test_facts_13.2.2.2.2.2.2.2.2.2.2.2.2.2.2.2.2.2.2.2,
    test_facts_14.1,
    test_taken test_facts_14.2.1,
    test_facts_14.2.2.1,
    test_facts_14.2.2.2.1,
    test_facts_14.2.2.2.2.1,
    test_taken test_facts_14.2.2.2.2.2.1,
    test_facts_14.2.2.2.2.2.2.1,
    test_facts_14.2.2.2.2.2.2.2.1,
    test_facts_14.2.2.2.2.2.2.2.2.1,
    test_facts_14.2.2.2.2.2.2.2.2.2.1,
    test_taken test_facts_14.2.2.2.2.2.2.2.2.2.2.1,
    test_facts_14.2.2.2.2.2.2.2.2.2.2.2.1,
    test_facts_14.2.2.2.2.2.2.2.2.2.2.2.2.1,
    test_facts_14.2.2.2.2.2.2.2.2.2.2.2.2.2.1⟩

theorem test_meets_CancelFailsTheOldestMatch :
    (Taken (testCtrl testCancel) .ctrl .cancelRendezvous testCancel)
    ∧ ((testCtrl testCancel).haltsSettled)
    ∧ ((testCtrl testCancel).openList = [])
    ∧ (Taken (testHold .ctrl testCancel testWaiting) .ctrl .cancelRendezvous testCancel)
    ∧ ((testHold .ctrl testCancel testWaiting).haltsSettled)
    ∧ ((testHold .ctrl testCancel testWaiting).openList = [] ++ 0 :: []
      ∧ (testHold .ctrl testCancel testWaiting).slots[(0 : SlotIx)].map Slot.tag
      = some (blockWord testCancel 8))
    ∧ (∀ (c : Chan) (j : SlotIx), hasChan 3 c = true → Entry.marker j ∈ ((testHold .ctrl testCancel testWaiting).chan c).queue
      → j = 0)
    ∧ (hasChan 3 2 = false)
    ∧ (((testHold .ctrl testCancel testWaiting).chan 0).state = .waiting
      ∧ ((testHold .ctrl testCancel testWaiting).chan 1).state = .dwelling
      ∧ (testHold .ctrl testCancel testWaiting).slots[(0 : SlotIx)].map Slot.members
      = some 3 ∧ (testHold .ctrl testCancel testWaiting).estopLatch = false)
    ∧ (Taken (testHold .ctrl testCancel testGathering) .ctrl .cancelRendezvous testCancel)
    ∧ ((testHold .ctrl testCancel testGathering).haltsSettled)
    ∧ ((testHold .ctrl testCancel testGathering).openList = [] ++ 0 :: []
      ∧ ((testHold .ctrl testCancel testGathering).chan 1).state = .running
      ∧ ((testHold .ctrl testCancel testGathering).chan 1).shaped = true
      ∧ (testHold .ctrl testCancel testGathering).slots[(0 : SlotIx)].map Slot.members
      = some 3) :=
  ⟨test_taken test_facts_14.2.2.2.2.2.2.2.2.2.2.2.2.2.2.1,
    test_facts_14.2.2.2.2.2.2.2.2.2.2.2.2.2.2.2.1,
    test_facts_14.2.2.2.2.2.2.2.2.2.2.2.2.2.2.2.2.1,
    test_taken test_facts_14.2.2.2.2.2.2.2.2.2.2.2.2.2.2.2.2.2.1,
    test_facts_14.2.2.2.2.2.2.2.2.2.2.2.2.2.2.2.2.2.2.1,
    test_facts_14.2.2.2.2.2.2.2.2.2.2.2.2.2.2.2.2.2.2.2,
    test_facts_15.1,
    test_facts_15.2.1,
    test_facts_15.2.2.1,
    test_taken test_facts_15.2.2.2.1,
    test_facts_15.2.2.2.2.1,
    test_facts_15.2.2.2.2.2.1⟩

set_option maxRecDepth 4000 in
theorem test_meets_WatchRequestsWriteTheTable :
    (Taken (testCtrl (testSetWatch 1)) .ctrl .setWatch (testSetWatch 1))
    ∧ ((testCtrl (testSetWatch 1)).haltsSettled)
    ∧ ((blockByte (testSetWatch 1) 8).toNat ≤ 15 ∧ recChannel (testSetWatch 1)
      ≤ 7 ∧ ((blockByte (testSetWatch 1) 9 = 1 ∧ (blockByte (testSetWatch 1) 10
      = 1 ∨ blockByte (testSetWatch 1) 10 = 2 ∨ blockByte (testSetWatch 1) 10
      = 3) ∧ blockByte (testSetWatch 1) 11 = 0 ∧ blockByte (testSetWatch 1) 12
      = 0 ∧ ((blockByte (testSetWatch 1) 13 = 1 ∧ blockField (testSetWatch 1) 20 2
      = 0) ∨ (blockByte (testSetWatch 1) 13 = 2 ∧ 1 ≤ blockField (testSetWatch 1) 20 2))) ∨ (blockByte (testSetWatch 1) 9
      = 2 ∧ blockByte (testSetWatch 1) 10 = 0 ∧ (blockByte (testSetWatch 1) 11).toNat
      ≤ 3 ∧ (blockByte (testSetWatch 1) 12 = 1 ∨ blockByte (testSetWatch 1) 12
      = 2 ∨ blockByte (testSetWatch 1) 12 = 3) ∧ blockField (testSetWatch 1) 16 4
      = 0 ∧ (blockByte (testSetWatch 1) 13 = 1 ∨ blockByte (testSetWatch 1) 13
      = 2) ∧ blockField (testSetWatch 1) 20 2 = 0)) ∧ (blockByte (testSetWatch 1) 14
      = 0 ∨ blockByte (testSetWatch 1) 14 = 1) ∧ (blockByte (testSetWatch 1) 15
      = 0 ∨ blockByte (testSetWatch 1) 15 = 1) ∧ blockByte (testSetWatch 1) 24 &&& blockByte (testSetWatch 1) 25
      = 0 ∧ ((blockByte (testSetWatch 1) 26 = 0 ∧ blockByte (testSetWatch 1) 27
      = 0) ∨ (blockByte (testSetWatch 1) 26 = 1 ∧ (blockByte (testSetWatch 1) 27).toNat
      ≤ 15)))
    ∧ (blockByte (testSetWatch 1) 9 = 1 ∧ blockByte (testSetWatch 1) 26 = 0)
    ∧ (Taken (testCtrl testEdgeWatch) .ctrl .setWatch testEdgeWatch)
    ∧ ((testCtrl testEdgeWatch).haltsSettled)
    ∧ ((blockByte testEdgeWatch 8).toNat ≤ 15 ∧ recChannel testEdgeWatch
      ≤ 7 ∧ ((blockByte testEdgeWatch 9 = 1 ∧ (blockByte testEdgeWatch 10
      = 1 ∨ blockByte testEdgeWatch 10 = 2 ∨ blockByte testEdgeWatch 10
      = 3) ∧ blockByte testEdgeWatch 11 = 0 ∧ blockByte testEdgeWatch 12
      = 0 ∧ ((blockByte testEdgeWatch 13 = 1 ∧ blockField testEdgeWatch 20 2
      = 0) ∨ (blockByte testEdgeWatch 13 = 2 ∧ 1 ≤ blockField testEdgeWatch 20 2))) ∨ (blockByte testEdgeWatch 9
      = 2 ∧ blockByte testEdgeWatch 10 = 0 ∧ (blockByte testEdgeWatch 11).toNat
      ≤ 3 ∧ (blockByte testEdgeWatch 12 = 1 ∨ blockByte testEdgeWatch 12
      = 2 ∨ blockByte testEdgeWatch 12 = 3) ∧ blockField testEdgeWatch 16 4
      = 0 ∧ (blockByte testEdgeWatch 13 = 1 ∨ blockByte testEdgeWatch 13
      = 2) ∧ blockField testEdgeWatch 20 2 = 0)) ∧ (blockByte testEdgeWatch 14
      = 0 ∨ blockByte testEdgeWatch 14 = 1) ∧ (blockByte testEdgeWatch 15
      = 0 ∨ blockByte testEdgeWatch 15 = 1) ∧ blockByte testEdgeWatch 24 &&& blockByte testEdgeWatch 25
      = 0 ∧ ((blockByte testEdgeWatch 26 = 0 ∧ blockByte testEdgeWatch 27
      = 0) ∨ (blockByte testEdgeWatch 26 = 1 ∧ (blockByte testEdgeWatch 27).toNat
      ≤ 15)))
    ∧ (blockByte testEdgeWatch 9 = 2 ∧ blockByte testEdgeWatch 26 = 1)
    ∧ (Taken (testCtrl testRearmWatch) .ctrl .setWatch testRearmWatch)
    ∧ ((testCtrl testRearmWatch).haltsSettled)
    ∧ ((blockByte testRearmWatch 8).toNat ≤ 15 ∧ recChannel testRearmWatch
      ≤ 7 ∧ ((blockByte testRearmWatch 9 = 1 ∧ (blockByte testRearmWatch 10
      = 1 ∨ blockByte testRearmWatch 10 = 2 ∨ blockByte testRearmWatch 10
      = 3) ∧ blockByte testRearmWatch 11 = 0 ∧ blockByte testRearmWatch 12
      = 0 ∧ ((blockByte testRearmWatch 13 = 1 ∧ blockField testRearmWatch 20 2
      = 0) ∨ (blockByte testRearmWatch 13 = 2 ∧ 1 ≤ blockField testRearmWatch 20 2))) ∨ (blockByte testRearmWatch 9
      = 2 ∧ blockByte testRearmWatch 10 = 0 ∧ (blockByte testRearmWatch 11).toNat
      ≤ 3 ∧ (blockByte testRearmWatch 12 = 1 ∨ blockByte testRearmWatch 12
      = 2 ∨ blockByte testRearmWatch 12 = 3) ∧ blockField testRearmWatch 16 4
      = 0 ∧ (blockByte testRearmWatch 13 = 1 ∨ blockByte testRearmWatch 13
      = 2) ∧ blockField testRearmWatch 20 2 = 0)) ∧ (blockByte testRearmWatch 14
      = 0 ∨ blockByte testRearmWatch 14 = 1) ∧ (blockByte testRearmWatch 15
      = 0 ∨ blockByte testRearmWatch 15 = 1) ∧ blockByte testRearmWatch 24 &&& blockByte testRearmWatch 25
      = 0 ∧ ((blockByte testRearmWatch 26 = 0 ∧ blockByte testRearmWatch 27
      = 0) ∨ (blockByte testRearmWatch 26 = 1 ∧ (blockByte testRearmWatch 27).toNat
      ≤ 15)))
    ∧ (Taken (testCtrl (testSetWatch 2)) .ctrl .setWatch (testSetWatch 2))
    ∧ ((testCtrl (testSetWatch 2)).haltsSettled)
    ∧ (¬((blockByte (testSetWatch 2) 8).toNat ≤ 15 ∧ recChannel (testSetWatch 2)
      ≤ 7 ∧ ((blockByte (testSetWatch 2) 9 = 1 ∧ (blockByte (testSetWatch 2) 10
      = 1 ∨ blockByte (testSetWatch 2) 10 = 2 ∨ blockByte (testSetWatch 2) 10
      = 3) ∧ blockByte (testSetWatch 2) 11 = 0 ∧ blockByte (testSetWatch 2) 12
      = 0 ∧ ((blockByte (testSetWatch 2) 13 = 1 ∧ blockField (testSetWatch 2) 20 2
      = 0) ∨ (blockByte (testSetWatch 2) 13 = 2 ∧ 1 ≤ blockField (testSetWatch 2) 20 2))) ∨ (blockByte (testSetWatch 2) 9
      = 2 ∧ blockByte (testSetWatch 2) 10 = 0 ∧ (blockByte (testSetWatch 2) 11).toNat
      ≤ 3 ∧ (blockByte (testSetWatch 2) 12 = 1 ∨ blockByte (testSetWatch 2) 12
      = 2 ∨ blockByte (testSetWatch 2) 12 = 3) ∧ blockField (testSetWatch 2) 16 4
      = 0 ∧ (blockByte (testSetWatch 2) 13 = 1 ∨ blockByte (testSetWatch 2) 13
      = 2) ∧ blockField (testSetWatch 2) 20 2 = 0)) ∧ (blockByte (testSetWatch 2) 14
      = 0 ∨ blockByte (testSetWatch 2) 14 = 1) ∧ (blockByte (testSetWatch 2) 15
      = 0 ∨ blockByte (testSetWatch 2) 15 = 1) ∧ blockByte (testSetWatch 2) 24 &&& blockByte (testSetWatch 2) 25
      = 0 ∧ ((blockByte (testSetWatch 2) 26 = 0 ∧ blockByte (testSetWatch 2) 27
      = 0) ∨ (blockByte (testSetWatch 2) 26 = 1 ∧ (blockByte (testSetWatch 2) 27).toNat
      ≤ 15))))
    ∧ (Taken (testCtrl (testClearWatch 15)) .ctrl .clearWatch (testClearWatch 15))
    ∧ ((testCtrl (testClearWatch 15)).haltsSettled)
    ∧ ((15 : WatchIx).val = (blockByte (testClearWatch 15) 8).toNat)
    ∧ (Taken (testCtrl (testClearWatch 16)) .ctrl .clearWatch (testClearWatch 16))
    ∧ ((testCtrl (testClearWatch 16)).haltsSettled)
    ∧ (15 < (blockByte (testClearWatch 16) 8).toNat) :=
  ⟨test_taken test_facts_15.2.2.2.2.2.2.1,
    test_facts_15.2.2.2.2.2.2.2.1,
    test_facts_15.2.2.2.2.2.2.2.2.1,
    test_facts_15.2.2.2.2.2.2.2.2.2.1,
    test_taken test_facts_15.2.2.2.2.2.2.2.2.2.2.1,
    test_facts_15.2.2.2.2.2.2.2.2.2.2.2.1,
    test_facts_15.2.2.2.2.2.2.2.2.2.2.2.2.1,
    test_facts_15.2.2.2.2.2.2.2.2.2.2.2.2.2.1,
    test_taken test_facts_15.2.2.2.2.2.2.2.2.2.2.2.2.2.2.1,
    test_facts_15.2.2.2.2.2.2.2.2.2.2.2.2.2.2.2.1,
    test_facts_15.2.2.2.2.2.2.2.2.2.2.2.2.2.2.2.2.1,
    test_taken test_facts_15.2.2.2.2.2.2.2.2.2.2.2.2.2.2.2.2.2.1,
    test_facts_15.2.2.2.2.2.2.2.2.2.2.2.2.2.2.2.2.2.2.1,
    test_facts_15.2.2.2.2.2.2.2.2.2.2.2.2.2.2.2.2.2.2.2,
    test_taken test_facts_16.1,
    test_facts_16.2.1,
    test_facts_16.2.2.1,
    test_taken test_facts_16.2.2.2.1,
    test_facts_16.2.2.2.2.1,
    test_facts_16.2.2.2.2.2.1⟩

set_option maxRecDepth 4000 in
theorem test_meets_SetChannelConfiguresOrRefuses :
    (Taken (testHold .ctrl (testSetChannel 1 6) testIdle) .ctrl .setChannel (testSetChannel 1 6))
    ∧ ((testHold .ctrl (testSetChannel 1 6) testIdle).haltsSettled)
    ∧ (¬(recChannel (testSetChannel 1 6) ≤ 7 ∧ (blockByte (testSetChannel 1 6) 8
      = 0 ∨ blockByte (testSetChannel 1 6) 8 = 1) ∧ 1 ≤ (blockByte (testSetChannel 1 6) 9).toNat
      ∧ (blockByte (testSetChannel 1 6) 9).toNat ≤ 63 ∧ 1 ≤ (blockByte (testSetChannel 1 6) 10).toNat
      ∧ 1 ≤ blockField (testSetChannel 1 6) 12 4 ∧ blockField (testSetChannel 1 6) 12 4
      ≤ 400000 ∧ blockField (testSetChannel 1 6) 12 4 ≤ 500000 / (blockByte (testSetChannel 1 6) 9).toNat
      ∧ (blockWord (testSetChannel 1 6) 16).toInt ≤ (blockWord (testSetChannel 1 6) 20).toInt
      ∧ (blockByte (testSetChannel 1 6) 24 = 1 ∨ blockByte (testSetChannel 1 6) 24
      = 2) ∧ (blockByte (testSetChannel 1 6) 25 = 0 ∨ blockByte (testSetChannel 1 6) 25
      = 1) ∧ (blockByte (testSetChannel 1 6) 26 = 0 ∨ blockByte (testSetChannel 1 6) 26
      = 1) ∧ (blockByte (testSetChannel 1 6) 27 = 1 ∨ blockByte (testSetChannel 1 6) 27
      = 2)))
    ∧ (Taken (testHold .ctrl (testSetChannel 1 5) testRunning) .ctrl .setChannel (testSetChannel 1 5))
    ∧ ((testHold .ctrl (testSetChannel 1 5) testRunning).haltsSettled)
    ∧ (recChannel (testSetChannel 1 5) ≤ 7 ∧ (blockByte (testSetChannel 1 5) 8
      = 0 ∨ blockByte (testSetChannel 1 5) 8 = 1) ∧ 1 ≤ (blockByte (testSetChannel 1 5) 9).toNat
      ∧ (blockByte (testSetChannel 1 5) 9).toNat ≤ 63 ∧ 1 ≤ (blockByte (testSetChannel 1 5) 10).toNat
      ∧ 1 ≤ blockField (testSetChannel 1 5) 12 4 ∧ blockField (testSetChannel 1 5) 12 4
      ≤ 400000 ∧ blockField (testSetChannel 1 5) 12 4 ≤ 500000 / (blockByte (testSetChannel 1 5) 9).toNat
      ∧ (blockWord (testSetChannel 1 5) 16).toInt ≤ (blockWord (testSetChannel 1 5) 20).toInt
      ∧ (blockByte (testSetChannel 1 5) 24 = 1 ∨ blockByte (testSetChannel 1 5) 24
      = 2) ∧ (blockByte (testSetChannel 1 5) 25 = 0 ∨ blockByte (testSetChannel 1 5) 25
      = 1) ∧ (blockByte (testSetChannel 1 5) 26 = 0 ∨ blockByte (testSetChannel 1 5) 26
      = 1) ∧ (blockByte (testSetChannel 1 5) 27 = 1 ∨ blockByte (testSetChannel 1 5) 27
      = 2))
    ∧ (¬(((testHold .ctrl (testSetChannel 1 5) testRunning).chan (recChan (testSetChannel 1 5))).state
      = .disabled ∨ ((testHold .ctrl (testSetChannel 1 5) testRunning).chan (recChan (testSetChannel 1 5))).state
      = .idle ∨ (((testHold .ctrl (testSetChannel 1 5) testRunning).chan (recChan (testSetChannel 1 5))).state
      = .held ∧ ((testHold .ctrl (testSetChannel 1 5) testRunning).chan (recChan (testSetChannel 1 5))).pgn.pulseEnd
      = none)))
    ∧ (Taken (testHold .ctrl (testSetChannel 1 5) testOn) .ctrl .setChannel (testSetChannel 1 5))
    ∧ ((testHold .ctrl (testSetChannel 1 5) testOn).haltsSettled)
    ∧ (recChannel (testSetChannel 1 5) ≤ 7 ∧ (blockByte (testSetChannel 1 5) 8
      = 0 ∨ blockByte (testSetChannel 1 5) 8 = 1) ∧ 1 ≤ (blockByte (testSetChannel 1 5) 9).toNat
      ∧ (blockByte (testSetChannel 1 5) 9).toNat ≤ 63 ∧ 1 ≤ (blockByte (testSetChannel 1 5) 10).toNat
      ∧ 1 ≤ blockField (testSetChannel 1 5) 12 4 ∧ blockField (testSetChannel 1 5) 12 4
      ≤ 400000 ∧ blockField (testSetChannel 1 5) 12 4 ≤ 500000 / (blockByte (testSetChannel 1 5) 9).toNat
      ∧ (blockWord (testSetChannel 1 5) 16).toInt ≤ (blockWord (testSetChannel 1 5) 20).toInt
      ∧ (blockByte (testSetChannel 1 5) 24 = 1 ∨ blockByte (testSetChannel 1 5) 24
      = 2) ∧ (blockByte (testSetChannel 1 5) 25 = 0 ∨ blockByte (testSetChannel 1 5) 25
      = 1) ∧ (blockByte (testSetChannel 1 5) 26 = 0 ∨ blockByte (testSetChannel 1 5) 26
      = 1) ∧ (blockByte (testSetChannel 1 5) 27 = 1 ∨ blockByte (testSetChannel 1 5) 27
      = 2))
    ∧ (((testHold .ctrl (testSetChannel 1 5) testOn).chan (recChan (testSetChannel 1 5))).state
      = .disabled ∨ ((testHold .ctrl (testSetChannel 1 5) testOn).chan (recChan (testSetChannel 1 5))).state
      = .idle ∨ (((testHold .ctrl (testSetChannel 1 5) testOn).chan (recChan (testSetChannel 1 5))).state
      = .held ∧ ((testHold .ctrl (testSetChannel 1 5) testOn).chan (recChan (testSetChannel 1 5))).pgn.pulseEnd
      = none))
    ∧ (blockByte (testSetChannel 1 5) 8 = 1 ∧ ((testHold .ctrl (testSetChannel 1 5) testOn).chan (recChan (testSetChannel 1 5))).state
      = .disabled)
    ∧ (Taken (testHold .ctrl (testSetChannel 0 5) testIdle) .ctrl .setChannel (testSetChannel 0 5))
    ∧ ((testHold .ctrl (testSetChannel 0 5) testIdle).haltsSettled)
    ∧ (((testHold .ctrl (testSetChannel 0 5) testIdle).chan (recChan (testSetChannel 0 5))).state
      = .disabled ∨ ((testHold .ctrl (testSetChannel 0 5) testIdle).chan (recChan (testSetChannel 0 5))).state
      = .idle ∨ (((testHold .ctrl (testSetChannel 0 5) testIdle).chan (recChan (testSetChannel 0 5))).state
      = .held ∧ ((testHold .ctrl (testSetChannel 0 5) testIdle).chan (recChan (testSetChannel 0 5))).pgn.pulseEnd
      = none))
    ∧ (blockByte (testSetChannel 0 5) 8 = 0)
    ∧ (Taken (testHold .ctrl (testSetChannel 1 5) testHeld) .ctrl .setChannel (testSetChannel 1 5))
    ∧ ((testHold .ctrl (testSetChannel 1 5) testHeld).haltsSettled)
    ∧ (((testHold .ctrl (testSetChannel 1 5) testHeld).chan (recChan (testSetChannel 1 5))).state
      = .disabled ∨ ((testHold .ctrl (testSetChannel 1 5) testHeld).chan (recChan (testSetChannel 1 5))).state
      = .idle ∨ (((testHold .ctrl (testSetChannel 1 5) testHeld).chan (recChan (testSetChannel 1 5))).state
      = .held ∧ ((testHold .ctrl (testSetChannel 1 5) testHeld).chan (recChan (testSetChannel 1 5))).pgn.pulseEnd
      = none))
    ∧ (blockByte (testSetChannel 1 5) 8 = 1 ∧ ((testHold .ctrl (testSetChannel 1 5) testHeld).chan (recChan (testSetChannel 1 5))).state
      ≠ .disabled)
    ∧ ((testIdle.chan 0).cfg.limitPolarity = .activeLow ∧ blockByte (testSetChannel 1 5) 24
      ≠ 2 ∧ blockByte ((testSetChannel 1 5).setIfInBounds 24 2) 24 = 2) :=
  ⟨test_taken test_facts_16.2.2.2.2.2.2.1,
    test_facts_16.2.2.2.2.2.2.2.1,
    test_facts_16.2.2.2.2.2.2.2.2.1,
    test_taken test_facts_16.2.2.2.2.2.2.2.2.2.1,
    test_facts_16.2.2.2.2.2.2.2.2.2.2.1,
    test_facts_16.2.2.2.2.2.2.2.2.2.2.2.1,
    test_facts_16.2.2.2.2.2.2.2.2.2.2.2.2.1,
    test_taken test_facts_16.2.2.2.2.2.2.2.2.2.2.2.2.2.1,
    test_facts_16.2.2.2.2.2.2.2.2.2.2.2.2.2.2.1,
    test_facts_16.2.2.2.2.2.2.2.2.2.2.2.1,
    test_facts_16.2.2.2.2.2.2.2.2.2.2.2.2.2.2.2.1,
    test_facts_16.2.2.2.2.2.2.2.2.2.2.2.2.2.2.2.2.1,
    test_taken test_facts_16.2.2.2.2.2.2.2.2.2.2.2.2.2.2.2.2.2.1,
    test_facts_16.2.2.2.2.2.2.2.2.2.2.2.2.2.2.2.2.2.2.1,
    test_facts_16.2.2.2.2.2.2.2.2.2.2.2.2.2.2.2.2.2.2.2,
    test_facts_17.1,
    test_taken test_facts_17.2.1,
    test_facts_17.2.2.1,
    test_facts_17.2.2.2.1,
    test_facts_17.2.2.2.2.1,
    test_facts_17.2.2.2.2.2.1⟩

theorem test_meets_QueryReportsTheChannel :
    (Taken (testHold .ctrl (testQuery 0) testRunning) .ctrl .query (testQuery 0))
    ∧ ((testHold .ctrl (testQuery 0) testRunning).haltsSettled)
    ∧ (∀ c : Chan, ((testHold .ctrl (testQuery 0) testRunning).chan c).queue.length ≤ Config.queueDepth)
    ∧ (recChannel (testQuery 0) ≤ 7)
    ∧ (Taken (testHold .ctrl (testQuery 8) testRunning) .ctrl .query (testQuery 8))
    ∧ ((testHold .ctrl (testQuery 8) testRunning).haltsSettled)
    ∧ (∀ c : Chan, ((testHold .ctrl (testQuery 8) testRunning).chan c).queue.length ≤ Config.queueDepth)
    ∧ (7 < recChannel (testQuery 8)) :=
  ⟨test_taken test_facts_17.2.2.2.2.2.2.1,
    test_facts_17.2.2.2.2.2.2.2.1,
    test_facts_17.2.2.2.2.2.2.2.2.1,
    test_facts_17.2.2.2.2.2.2.2.2.2.1,
    test_taken test_facts_17.2.2.2.2.2.2.2.2.2.2.1,
    test_facts_17.2.2.2.2.2.2.2.2.2.2.2.1,
    test_facts_17.2.2.2.2.2.2.2.2.2.2.2.2.1,
    test_facts_17.2.2.2.2.2.2.2.2.2.2.2.2.2.1⟩

theorem test_meets_ClearEstopFollowsTheInput :
    (Taken (testCtrl testClearEstop) .ctrl .clearEstop testClearEstop)
    ∧ ((testCtrl testClearEstop).haltsSettled)
    ∧ ((testCtrl testClearEstop).estop.qualified = false)
    ∧ (Taken (testHold .ctrl testClearEstop testState13) .ctrl .clearEstop testClearEstop)
    ∧ ((testHold .ctrl testClearEstop testState13).haltsSettled)
    ∧ ((testHold .ctrl testClearEstop testState13).estop.qualified = true) :=
  ⟨test_taken test_facts_17.2.2.2.2.2.2.2.2.2.2.2.2.2.2.1,
    test_facts_17.2.2.2.2.2.2.2.2.2.2.2.2.2.2.2.1,
    test_facts_17.2.2.2.2.2.2.2.2.2.2.2.2.2.2.2.2.1,
    test_taken test_facts_17.2.2.2.2.2.2.2.2.2.2.2.2.2.2.2.2.2.1,
    test_facts_17.2.2.2.2.2.2.2.2.2.2.2.2.2.2.2.2.2.2.1,
    test_facts_17.2.2.2.2.2.2.2.2.2.2.2.2.2.2.2.2.2.2.2⟩

theorem test_meets_PlainRegisterWrites :
    (testIdle.inReset = false)
    ∧ (testIdle.haltsSettled)
    ∧ ((Instr.indexErrorClear 2048).wf = true ∧ (Instr.ignoredRegisterWrite 44 15 1).wf
      = true ∧ (Instr.ignoredRegisterWrite 32 15 1).wf = true ∧ (Instr.ignoredRegisterWrite 0 14 2).wf
      = true)
    ∧ ((2047 : Word).getLsbD 11 = false) :=
  ⟨test_facts_18.1,
    test_facts_18.2.1,
    test_facts_18.2.2.1,
    test_facts_18.2.2.2.1⟩

theorem test_meets_IndexWritesAreJudged :
    (testIdle.inReset = false)
    ∧ (testIdle.haltsSettled)
    ∧ (testIdle.part = .running ∧ (63 : Word).toNat < placeSize testIdle.mainRing.place
      ∧ placeSize testIdle.mainRing.place ≤ (64 : Word).toNat)
    ∧ ((31 : Word).toNat < placeSize testIdle.ctrlRing.place ∧ placeSize testIdle.ctrlRing.place
      ≤ (32 : Word).toNat ∧ (31 : Word).toNat < placeSize testIdle.cplPlace
      ∧ placeSize testIdle.cplPlace ≤ (32 : Word).toNat)
    ∧ (testStarting.inReset = false)
    ∧ (testStarting.haltsSettled)
    ∧ (¬(testStarting.part = .running ∨ testStarting.part = .draining ∨ testStarting.part = .failed)) :=
  ⟨test_facts_18.1,
    test_facts_18.2.1,
    test_facts_18.2.2.2.2.1,
    test_facts_18.2.2.2.2.2.1,
    test_facts_18.2.2.2.2.2.2.1,
    test_facts_18.2.2.2.2.2.2.2.1,
    test_facts_18.2.2.2.2.2.2.2.2.1⟩

set_option maxRecDepth 4000 in
theorem test_meets_ControlWritesActByPartState :
    ((5 : Word).getLsbD 1 = false ∧ (5 : Word).getLsbD 0 = true ∧ (4 : Word).getLsbD 1
      = false ∧ (4 : Word).getLsbD 0 = false)
    ∧ (testRunning.inReset = false)
    ∧ (testRunning.haltsSettled)
    ∧ (testRunning.queuesShaped)
    ∧ (testRunning.slotsSound)
    ∧ (testStarting.inReset = false)
    ∧ (testStarting.haltsSettled)
    ∧ (testStarting.queuesShaped)
    ∧ (testStarting.slotsSound)
    ∧ (testState14.inReset = false)
    ∧ (testState14.haltsSettled)
    ∧ (testState14.queuesShaped)
    ∧ (testState14.slotsSound)
    ∧ (testState15.inReset = false)
    ∧ (testState15.haltsSettled)
    ∧ (testState15.queuesShaped)
    ∧ (testState15.slotsSound)
    ∧ (testRunning.part = .running ∧ testStarting.part = .starting ∧ testState14.part = .off)
    ∧ ((testState14.setupLo.toNat + 4294967296 * testState14.setupHi.toNat) % 64
      = 0 ∧ (testState15.setupLo.toNat + 4294967296 * testState15.setupHi.toNat) % 64
      ≠ 0)
    ∧ ((testWaiting.modChan 1 fun ch => { ch with state := .idle, queue := [], dwellStart := none }).inReset = false)
    ∧ ((testWaiting.modChan 1 fun ch => { ch with state := .idle, queue := [], dwellStart := none }).haltsSettled)
    ∧ ((testWaiting.modChan 1 fun ch => { ch with state := .idle, queue := [], dwellStart := none }).queuesShaped)
    ∧ ((testWaiting.modChan 1 fun ch => { ch with state := .idle, queue := [], dwellStart := none }).slotsSound)
    ∧ ((testWaiting.modChan 1 fun ch => { ch with state := .idle, queue := [], dwellStart := none }).part
      = .running ∧ ((testWaiting.modChan 1 fun ch => { ch with state := .idle, queue := [], dwellStart := none }).chan 1).state
      = .idle ∧ ∃ sl ∈ (testWaiting.modChan 1 fun ch => { ch with state := .idle, queue := [], dwellStart := none }).slots[(0 : SlotIx)], hasChan sl.members 1
      = true)
    ∧ (testMixed.inReset = false)
    ∧ (testMixed.haltsSettled)
    ∧ (testMixed.queuesShaped)
    ∧ (testMixed.slotsSound)
    ∧ (testMixed.part = .running ∧ (testMixed.chan 0).state = .idle ∧ (testMixed.chan 1).state
      = .running ∧ ∀ i : SlotIx, ∀ sl ∈ testMixed.slots[i], hasChan sl.members 0
      = false)
    ∧ (testWaiting.inReset = false)
    ∧ (testWaiting.haltsSettled)
    ∧ (testWaiting.queuesShaped)
    ∧ (testWaiting.slotsSound) :=
  ⟨test_facts_18.2.2.2.2.2.2.2.2.2.1,
    test_facts_18.2.2.2.2.2.2.2.2.2.2.1,
    test_facts_18.2.2.2.2.2.2.2.2.2.2.2.1,
    test_facts_18.2.2.2.2.2.2.2.2.2.2.2.2.1,
    test_sound test_facts_18.2.2.2.2.2.2.2.2.2.2.2.2.2.1,
    test_facts_18.2.2.2.2.2.2.1,
    test_facts_18.2.2.2.2.2.2.2.1,
    test_facts_18.2.2.2.2.2.2.2.2.2.2.2.2.2.2.1,
    test_sound test_facts_18.2.2.2.2.2.2.2.2.2.2.2.2.2.2.2.1,
    test_facts_18.2.2.2.2.2.2.2.2.2.2.2.2.2.2.2.2.1,
    test_facts_18.2.2.2.2.2.2.2.2.2.2.2.2.2.2.2.2.2.1,
    test_facts_18.2.2.2.2.2.2.2.2.2.2.2.2.2.2.2.2.2.2.1,
    test_sound test_facts_18.2.2.2.2.2.2.2.2.2.2.2.2.2.2.2.2.2.2.2,
    test_facts_19.1,
    test_facts_19.2.1,
    test_facts_19.2.2.1,
    test_sound test_facts_19.2.2.2.1,
    test_facts_19.2.2.2.2.1,
    test_facts_19.2.2.2.2.2.1,
    test_facts_19.2.2.2.2.2.2.1,
    test_facts_19.2.2.2.2.2.2.2.1,
    test_facts_19.2.2.2.2.2.2.2.2.1,
    test_slots test_facts_19.2.2.2.2.2.2.2.2.2.1,
    test_facts_19.2.2.2.2.2.2.2.2.2.2.1,
    test_facts_19.2.2.2.2.2.2.2.2.2.2.2.1,
    test_facts_19.2.2.2.2.2.2.2.2.2.2.2.2.1,
    test_facts_19.2.2.2.2.2.2.2.2.2.2.2.2.2.1,
    test_sound test_facts_19.2.2.2.2.2.2.2.2.2.2.2.2.2.2.1,
    test_facts_19.2.2.2.2.2.2.2.2.2.2.2.2.2.2.2.1,
    test_facts_19.2.2.2.2.2.2.2.2.2.2.2.2.2.2.2.2.1,
    test_facts_19.2.2.2.2.2.2.2.2.2.2.2.2.2.2.2.2.2.1,
    test_facts_19.2.2.2.2.2.2.2.2.2.2.2.2.2.2.2.2.2.2.1,
    test_slots test_facts_19.2.2.2.2.2.2.2.2.2.2.2.2.2.2.2.2.2.2.2⟩

theorem test_meets_ResetsRestoreEveryBlock :
    (testRunning.inReset = false)
    ∧ ((Instr.softReset 2).wf = true)
    ∧ (testPinsLow.inReset = false)
    ∧ (testPinsLow.haltsSettled)
    ∧ (testPinsLow.rst.completes (!testPinsLow.rst.level) 1 testPinsLow.now = true)
    ∧ (testRunning.inReset = false)
    ∧ (testRunning.haltsSettled)
    ∧ (¬(testRunning.rst.completes (!testRunning.rst.level) 1 testRunning.now = true))
    ∧ (({ testAt 40 State.reset with rst := testPin true true }).inReset = true)
    ∧ (({ testAt 40 State.reset with rst := testPin true true }).rst.completes (!({ testAt 40 State.reset with rst := testPin true true }).rst.level) 1 ({ testAt 40 State.reset with rst := testPin true true }).now
      = true)
    ∧ (¬(testRunning.inReset = true ∧ testRunning.rst.completes (!testRunning.rst.level) 1 testRunning.now = true))
    ∧ ((testAfter .pinResetAssert testPinsLow).inReset = true)
    ∧ (Instr.nop .main ≠ .pinResetRelease) :=
  ⟨test_facts_18.2.2.2.2.2.2.2.2.2.2.1,
    test_facts_20.1,
    test_facts_20.2.1,
    test_facts_20.2.2.1,
    test_facts_20.2.2.2.1,
    test_facts_18.2.2.2.2.2.2.2.2.2.2.1,
    test_facts_18.2.2.2.2.2.2.2.2.2.2.2.1,
    test_facts_20.2.2.2.2.1,
    test_facts_20.2.2.2.2.2.1,
    test_facts_20.2.2.2.2.2.2.1,
    test_facts_20.2.2.2.2.2.2.2.1,
    test_facts_20.2.2.2.2.2.2.2.2.1,
    test_facts_20.2.2.2.2.2.2.2.2.2.1⟩

set_option maxRecDepth 4000 in
theorem test_meets_EstopChangesAct :
    (({ testAt 160 testRunning with estop := testPin true true }).inReset = false)
    ∧ (({ testAt 160 testRunning with estop := testPin true true }).haltsSettled)
    ∧ (({ testAt 160 testRunning with estop := testPin true true }).queuesShaped)
    ∧ (({ testAt 160 testRunning with estop := testPin true true }).slotsSound)
    ∧ (testPinsLow.inReset = false)
    ∧ (testPinsLow.haltsSettled)
    ∧ (testPinsLow.queuesShaped)
    ∧ (testPinsLow.slotsSound)
    ∧ (testRunning.inReset = false)
    ∧ (testRunning.haltsSettled)
    ∧ (testRunning.queuesShaped)
    ∧ (testRunning.slotsSound)
    ∧ (({ testAt 160 testHeld with estop := testPin false false, estopLatch := true }).inReset = false)
    ∧ (({ testAt 160 testHeld with estop := testPin false false, estopLatch := true }).haltsSettled)
    ∧ (({ testAt 160 testHeld with estop := testPin false false, estopLatch := true }).queuesShaped)
    ∧ (({ testAt 160 testHeld with estop := testPin false false, estopLatch := true }).slotsSound)
    ∧ (({ testAt 160 testStopping with estop := testPin false false, part := .failed, halts := [] }).inReset = false)
    ∧ (({ testAt 160 testStopping with estop := testPin false false, part := .failed, halts := [] }).haltsSettled)
    ∧ (({ testAt 160 testStopping with estop := testPin false false, part := .failed, halts := [] }).queuesShaped)
    ∧ (({ testAt 160 testStopping with estop := testPin false false, part := .failed, halts := [] }).slotsSound)
    ∧ (({ testAt 160 testStarting with estop := testPin false false }).inReset = false)
    ∧ (({ testAt 160 testStarting with estop := testPin false false }).haltsSettled)
    ∧ (({ testAt 160 testStarting with estop := testPin false false }).queuesShaped)
    ∧ (({ testAt 160 testStarting with estop := testPin false false }).slotsSound)
    ∧ (¬(testRunning.estop.completes (!testRunning.estop.level) 4 testRunning.now = true))
    ∧ (({ testAt 160 testRunning with estop := testPin true true }).estop.completes (!({ testAt 160 testRunning with estop := testPin true true }).estop.level) 4 ({ testAt 160 testRunning with estop := testPin true true }).now
      = true ∧ ({ testAt 160 testRunning with estop := testPin true true }).estop.qualified
      = true)
    ∧ (testPinsLow.estop.completes (!testPinsLow.estop.level) 4 testPinsLow.now
      = true ∧ testPinsLow.estop.qualified = false ∧ testPinsLow.part = .running
      ∧ testPinsLow.estopLatch = false ∧ testPinsLow.notices < 16)
    ∧ (({ testAt 160 testHeld with estop := testPin false false, estopLatch := true }).estop.completes (!({ testAt 160 testHeld with estop := testPin false false, estopLatch := true }).estop.level) 4 ({ testAt 160 testHeld with estop := testPin false false, estopLatch := true }).now
      = true ∧ ({ testAt 160 testHeld with estop := testPin false false, estopLatch := true }).estop.qualified
      = false ∧ ({ testAt 160 testHeld with estop := testPin false false, estopLatch := true }).estopLatch
      = true ∧ ({ testAt 160 testHeld with estop := testPin false false, estopLatch := true }).part
      ≠ .failed)
    ∧ ((testCrowded testPinsLow).inReset = false)
    ∧ ((testCrowded testPinsLow).haltsSettled)
    ∧ ((testCrowded testPinsLow).queuesShaped)
    ∧ ((testCrowded testPinsLow).slotsSound)
    ∧ ((testCrowded testPinsLow).estop.completes (!(testCrowded testPinsLow).estop.level) 4 (testCrowded testPinsLow).now
      = true ∧ (testCrowded testPinsLow).estop.qualified = false ∧ (testCrowded testPinsLow).part
      = .running ∧ (testCrowded testPinsLow).estopLatch = false ∧ 16 ≤ (testCrowded testPinsLow).notices)
    ∧ (({ testAt 160 testStopping with estop := testPin false false, part := .failed, halts := [] }).estop.completes (!({ testAt 160 testStopping with estop := testPin false false, part := .failed, halts := [] }).estop.level) 4 ({ testAt 160 testStopping with estop := testPin false false, part := .failed, halts := [] }).now
      = true ∧ ({ testAt 160 testStopping with estop := testPin false false, part := .failed, halts := [] }).estop.qualified
      = false ∧ ({ testAt 160 testStopping with estop := testPin false false, part := .failed, halts := [] }).part
      = .failed ∧ (({ testAt 160 testStopping with estop := testPin false false, part := .failed, halts := [] }).chan 0).state
      = .stopping)
    ∧ (({ testAt 160 testStarting with estop := testPin false false }).estop.completes (!({ testAt 160 testStarting with estop := testPin false false }).estop.level) 4 ({ testAt 160 testStarting with estop := testPin false false }).now
      = true ∧ ({ testAt 160 testStarting with estop := testPin false false }).estop.qualified
      = false ∧ ({ testAt 160 testStarting with estop := testPin false false }).part
      = .starting) :=
  ⟨test_facts_20.2.2.2.2.2.2.2.2.2.2.1,
    test_facts_20.2.2.2.2.2.2.2.2.2.2.2.1,
    test_facts_20.2.2.2.2.2.2.2.2.2.2.2.2.1,
    test_sound test_facts_20.2.2.2.2.2.2.2.2.2.2.2.2.2.1,
    test_facts_20.2.1,
    test_facts_20.2.2.1,
    test_facts_20.2.2.2.2.2.2.2.2.2.2.2.2.2.2.1,
    test_sound test_facts_20.2.2.2.2.2.2.2.2.2.2.2.2.2.2.2.1,
    test_facts_18.2.2.2.2.2.2.2.2.2.2.1,
    test_facts_18.2.2.2.2.2.2.2.2.2.2.2.1,
    test_facts_18.2.2.2.2.2.2.2.2.2.2.2.2.1,
    test_sound test_facts_18.2.2.2.2.2.2.2.2.2.2.2.2.2.1,
    test_facts_20.2.2.2.2.2.2.2.2.2.2.2.2.2.2.2.2.1,
    test_facts_20.2.2.2.2.2.2.2.2.2.2.2.2.2.2.2.2.2.1,
    test_facts_20.2.2.2.2.2.2.2.2.2.2.2.2.2.2.2.2.2.2.1,
    test_sound test_facts_20.2.2.2.2.2.2.2.2.2.2.2.2.2.2.2.2.2.2.2,
    test_facts_21.1,
    test_facts_21.2.1,
    test_facts_21.2.2.1,
    test_sound test_facts_21.2.2.2.1,
    test_facts_21.2.2.2.2.1,
    test_facts_21.2.2.2.2.2.1,
    test_facts_21.2.2.2.2.2.2.1,
    test_sound test_facts_21.2.2.2.2.2.2.2.1,
    test_facts_21.2.2.2.2.2.2.2.2.1,
    test_facts_21.2.2.2.2.2.2.2.2.2.1,
    test_facts_21.2.2.2.2.2.2.2.2.2.2.1,
    test_facts_21.2.2.2.2.2.2.2.2.2.2.2.1,
    test_facts_21.2.2.2.2.2.2.2.2.2.2.2.2.1,
    test_facts_21.2.2.2.2.2.2.2.2.2.2.2.2.2.1,
    test_facts_21.2.2.2.2.2.2.2.2.2.2.2.2.2.2.1,
    test_sound test_facts_21.2.2.2.2.2.2.2.2.2.2.2.2.2.2.2.1,
    test_facts_21.2.2.2.2.2.2.2.2.2.2.2.2.2.2.2.2.1,
    test_facts_21.2.2.2.2.2.2.2.2.2.2.2.2.2.2.2.2.2.1,
    test_facts_21.2.2.2.2.2.2.2.2.2.2.2.2.2.2.2.2.2.2.1⟩

set_option maxRecDepth 4000 in
theorem test_meets_LimitChangesAct :
    (testRunning.inReset = false)
    ∧ (testRunning.haltsSettled)
    ∧ (testRunning.queuesShaped)
    ∧ (¬(((testRunning.chan 0).limit .limp).completes (if (testRunning.chan 0).cfg.limitPolarity
      = .activeHigh then ((testRunning.chan 0).limit .limp).level else !((testRunning.chan 0).limit .limp).level) (testRunning.chan 0).cfg.limitFilter testRunning.now
      = true ∧ ((testRunning.chan 0).limit .limp).qualified ≠ true))
    ∧ (testLimitHit.inReset = false)
    ∧ (testLimitHit.haltsSettled)
    ∧ (testLimitHit.queuesShaped)
    ∧ (((testLimitHit.chan 0).limit .limp).completes (if (testLimitHit.chan 0).cfg.limitPolarity
      = .activeHigh then ((testLimitHit.chan 0).limit .limp).level else !((testLimitHit.chan 0).limit .limp).level) (testLimitHit.chan 0).cfg.limitFilter testLimitHit.now
      = true ∧ ((testLimitHit.chan 0).limit .limp).qualified ≠ true)
    ∧ ((testLimitHit.chan 0).cfg.limpEnable = true ∧ (testLimitHit.chan 0).state
      = .running ∧ (testLimitHit.chan 0).resolved = some { endPos := 100, steps := 100, positive := true }
      ∧ (testLimitHit.chan 0).headMove? = some (testEntry 100) ∧ testLimitHit.notices
      < 16)
    ∧ ((testLimitHit.chan 0).pgn.pulseEnd ≠ none)
    ∧ ((testStepNext.modChan 0 fun ch => { ch with limp := testPin false false }).inReset = false)
    ∧ ((testStepNext.modChan 0 fun ch => { ch with limp := testPin false false }).haltsSettled)
    ∧ ((testStepNext.modChan 0 fun ch => { ch with limp := testPin false false }).queuesShaped)
    ∧ ((((testStepNext.modChan 0 fun ch => { ch with limp := testPin false false }).chan 0).limit .limp).completes (if ((testStepNext.modChan 0 fun ch => { ch with limp := testPin false false }).chan 0).cfg.limitPolarity
      = .activeHigh then (((testStepNext.modChan 0 fun ch => { ch with limp := testPin false false }).chan 0).limit .limp).level else !(((testStepNext.modChan 0 fun ch => { ch with limp := testPin false false }).chan 0).limit .limp).level) ((testStepNext.modChan 0 fun ch => { ch with limp := testPin false false }).chan 0).cfg.limitFilter (testStepNext.modChan 0 fun ch => { ch with limp := testPin false false }).now
      = true ∧ (((testStepNext.modChan 0 fun ch => { ch with limp := testPin false false }).chan 0).limit .limp).qualified
      ≠ true)
    ∧ (((testStepNext.modChan 0 fun ch => { ch with limp := testPin false false }).chan 0).cfg.limpEnable
      = true ∧ ((testStepNext.modChan 0 fun ch => { ch with limp := testPin false false }).chan 0).state
      = .running ∧ ((testStepNext.modChan 0 fun ch => { ch with limp := testPin false false }).chan 0).resolved
      = some { endPos := 100, steps := 100, positive := true } ∧ ((testStepNext.modChan 0 fun ch => { ch with limp := testPin false false }).chan 0).headMove?
      = some (testEntry 100) ∧ (testStepNext.modChan 0 fun ch => { ch with limp := testPin false false }).notices
      < 16)
    ∧ (((testStepNext.modChan 0 fun ch => { ch with limp := testPin false false }).chan 0).pgn.pulseEnd = none)
    ∧ ((testCrowded testLimitHit).inReset = false)
    ∧ ((testCrowded testLimitHit).haltsSettled)
    ∧ ((testCrowded testLimitHit).queuesShaped)
    ∧ ((((testCrowded testLimitHit).chan 0).limit .limp).completes (if ((testCrowded testLimitHit).chan 0).cfg.limitPolarity
      = .activeHigh then (((testCrowded testLimitHit).chan 0).limit .limp).level else !(((testCrowded testLimitHit).chan 0).limit .limp).level) ((testCrowded testLimitHit).chan 0).cfg.limitFilter (testCrowded testLimitHit).now
      = true ∧ (((testCrowded testLimitHit).chan 0).limit .limp).qualified
      ≠ true)
    ∧ (((testCrowded testLimitHit).chan 0).cfg.limpEnable = true ∧ ((testCrowded testLimitHit).chan 0).state
      = .running ∧ ((testCrowded testLimitHit).chan 0).resolved = some { endPos := 100, steps := 100, positive := true }
      ∧ ((testCrowded testLimitHit).chan 0).headMove? = some (testEntry 100)
      ∧ 16 ≤ (testCrowded testLimitHit).notices)
    ∧ (((testCrowded testLimitHit).chan 0).pgn.pulseEnd ≠ none)
    ∧ ((testStepNext.modChan 0 fun ch => { ch with limn := testPin false false }).inReset = false)
    ∧ ((testStepNext.modChan 0 fun ch => { ch with limn := testPin false false }).haltsSettled)
    ∧ ((testStepNext.modChan 0 fun ch => { ch with limn := testPin false false }).queuesShaped)
    ∧ ((((testStepNext.modChan 0 fun ch => { ch with limn := testPin false false }).chan 0).limit .limn).completes (if ((testStepNext.modChan 0 fun ch => { ch with limn := testPin false false }).chan 0).cfg.limitPolarity
      = .activeHigh then (((testStepNext.modChan 0 fun ch => { ch with limn := testPin false false }).chan 0).limit .limn).level else !(((testStepNext.modChan 0 fun ch => { ch with limn := testPin false false }).chan 0).limit .limn).level) ((testStepNext.modChan 0 fun ch => { ch with limn := testPin false false }).chan 0).cfg.limitFilter (testStepNext.modChan 0 fun ch => { ch with limn := testPin false false }).now
      = true ∧ (((testStepNext.modChan 0 fun ch => { ch with limn := testPin false false }).chan 0).limit .limn).qualified
      ≠ true)
    ∧ (¬(∃ x ∈ ((testStepNext.modChan 0 fun ch => { ch with limn := testPin false false }).chan 0).resolved, (x.positive
      = true ↔ LimitInput.limn = .limp))) :=
  ⟨test_facts_18.2.2.2.2.2.2.2.2.2.2.1,
    test_facts_18.2.2.2.2.2.2.2.2.2.2.2.1,
    test_facts_18.2.2.2.2.2.2.2.2.2.2.2.2.1,
    test_facts_21.2.2.2.2.2.2.2.2.2.2.2.2.2.2.2.2.2.2.2,
    test_facts_22.1,
    test_facts_22.2.1,
    test_facts_22.2.2.1,
    test_facts_22.2.2.2.1,
    test_facts_22.2.2.2.2.1,
    test_facts_22.2.2.2.2.2.1,
    test_facts_22.2.2.2.2.2.2.1,
    test_facts_22.2.2.2.2.2.2.2.1,
    test_facts_22.2.2.2.2.2.2.2.2.1,
    test_facts_22.2.2.2.2.2.2.2.2.2.1,
    test_facts_22.2.2.2.2.2.2.2.2.2.2.1,
    test_facts_22.2.2.2.2.2.2.2.2.2.2.2.1,
    test_facts_22.2.2.2.2.2.2.2.2.2.2.2.2.1,
    test_facts_22.2.2.2.2.2.2.2.2.2.2.2.2.2.1,
    test_facts_22.2.2.2.2.2.2.2.2.2.2.2.2.2.2.1,
    test_facts_22.2.2.2.2.2.2.2.2.2.2.2.2.2.2.2.1,
    test_facts_22.2.2.2.2.2.2.2.2.2.2.2.2.2.2.2.2.1,
    test_facts_22.2.2.2.2.2.2.2.2.2.2.2.2.2.2.2.2.2.1,
    test_facts_22.2.2.2.2.2.2.2.2.2.2.2.2.2.2.2.2.2.2.1,
    test_facts_22.2.2.2.2.2.2.2.2.2.2.2.2.2.2.2.2.2.2.2,
    test_facts_23.1,
    test_facts_23.2.1,
    test_facts_23.2.2.1⟩

set_option maxRecDepth 4000 in
theorem test_meets_QualifiedEdgesFireWatches :
    (testIdle.inReset = false)
    ∧ (testIdle.haltsSettled)
    ∧ (¬((testIdle.caps[(0 : CapIx)]).completes (testIdle.caps[(0 : CapIx)]).level testIdle.capFilter[(0 : CapIx)] testIdle.now
      = true ∧ (testIdle.caps[(0 : CapIx)]).qualified ≠ false))
    ∧ (testState16.inReset = false)
    ∧ (testState16.haltsSettled)
    ∧ ((testState16.caps[(0 : CapIx)]).completes (testState16.caps[(0 : CapIx)]).level testState16.capFilter[(0 : CapIx)] testState16.now
      = true ∧ (testState16.caps[(0 : CapIx)]).qualified ≠ false)
    ∧ (∀ (i : WatchIx) w, testState16.watches[i] = some w → ¬(w.state = .armed
      ∧ ∃ edge rearm, w.cond = .edge 0 edge rearm ∧ (edge = .both ∨ (edge
      = .rise ∧ false = true) ∨ (edge = .fall ∧ false = false))))
    ∧ (testCapture.inReset = false)
    ∧ (testCapture.haltsSettled)
    ∧ ((testCapture.caps[(0 : CapIx)]).completes (testCapture.caps[(0 : CapIx)]).level testCapture.capFilter[(0 : CapIx)] testCapture.now
      = true ∧ (testCapture.caps[(0 : CapIx)]).qualified ≠ false)
    ∧ (testCapture.part = .running ∧ testCapture.watches[(2 : WatchIx)]
      = some testWatch ∧ testWatch.state = .armed ∧ testWatch.cond = .edge 0 .both false
      ∧ testWatch.decel = 0 ∧ testWatch.abrupt = 0 ∧ testWatch.arm = none
      ∧ testWatch.notify = true ∧ testCapture.notices < 16)
    ∧ ((testCrowded testCapture).inReset = false)
    ∧ ((testCrowded testCapture).haltsSettled)
    ∧ (((testCrowded testCapture).caps[(0 : CapIx)]).completes ((testCrowded testCapture).caps[(0 : CapIx)]).level (testCrowded testCapture).capFilter[(0 : CapIx)] (testCrowded testCapture).now
      = true ∧ ((testCrowded testCapture).caps[(0 : CapIx)]).qualified ≠ false)
    ∧ (16 ≤ (testCrowded testCapture).notices ∧ (testCrowded testCapture).watches[(2 : WatchIx)] = some testWatch)
    ∧ (∀ (i : WatchIx) w, i ≠ 2 → testCapture.watches[i] = some w → ¬(w.state
      = .armed ∧ ∃ edge rearm, w.cond = .edge 0 edge rearm ∧ (edge = .both ∨ (edge
      = .rise ∧ false = true) ∨ (edge = .fall ∧ false = false))))
    ∧ (State.reset.part ≠ .running ∧ State.reset.part ≠ .draining) :=
  ⟨test_facts_18.1,
    test_facts_18.2.1,
    test_facts_23.2.2.2.1,
    test_facts_23.2.2.2.2.1,
    test_facts_23.2.2.2.2.2.1,
    test_facts_23.2.2.2.2.2.2.1,
    (fun h => test_noEdge h 0 false) test_facts_23.2.2.2.2.2.2.2.1,
    test_facts_23.2.2.2.2.2.2.2.2.1,
    test_facts_23.2.2.2.2.2.2.2.2.2.1,
    test_facts_23.2.2.2.2.2.2.2.2.2.2.1,
    test_facts_23.2.2.2.2.2.2.2.2.2.2.2.1,
    test_facts_23.2.2.2.2.2.2.2.2.2.2.2.2.1,
    test_facts_23.2.2.2.2.2.2.2.2.2.2.2.2.2.1,
    test_facts_23.2.2.2.2.2.2.2.2.2.2.2.2.2.2.1,
    test_facts_23.2.2.2.2.2.2.2.2.2.2.2.2.2.2.2.1,
    (fun h => test_oneWatch h 0 false) test_facts_23.2.2.2.2.2.2.2.2.2.2.2.2.2.2.2.2.1,
    test_facts_23.2.2.2.2.2.2.2.2.2.2.2.2.2.2.2.2.2.1⟩

theorem test_meets_WatchesFireAndAct :
    (¬(State.reset.part = .running ∨ State.reset.part = .draining))
    ∧ (testArmed.part = .running ∧ testArmed.watches[(2 : WatchIx)] = some testStepWatch
      ∧ testStepWatch.state = .armed ∧ testStepWatch.channel = 0 ∧ testStepWatch.cond
      = .position 2 .up (some 5))
    ∧ ((chansOf testStepWatch.decel) = [0] ∧ (chansOf testStepWatch.abrupt) = [1] ∧ testStepWatch.arm = some 5)
    ∧ ((testArmed.watches[(5 : WatchIx)]).map Watch.state = some .dormant
      ∧ (testArmed.watches[(7 : WatchIx)]).map Watch.state = some .cooling)
    ∧ (∃ w ∈ testArmed.watches[(7 : WatchIx)], rearms w 0 2 = true)
    ∧ (testArmed.inReset = false ∧ (testArmed.chan 0).state = .running ∧ (testArmed.chan 0).pgn.schedule
      = some { due := 283687, rateSq := 20000 } ∧ 283687 ≤ testArmed.now)
    ∧ ((testArmed.chan 0).headMove? = some (testEntry 100) ∧ 1 ≤ (testArmed.chan 0).pgn.remaining) :=
  ⟨test_facts_23.2.2.2.2.2.2.2.2.2.2.2.2.2.2.2.2.2.2.1,
    test_facts_23.2.2.2.2.2.2.2.2.2.2.2.2.2.2.2.2.2.2.2,
    test_facts_24.1,
    test_facts_24.2.1,
    test_facts_24.2.2.1,
    test_facts_24.2.2.2.1,
    test_facts_24.2.2.2.2.1⟩

set_option maxRecDepth 4000 in
theorem test_meets_SlotsEndInTime :
    (testIdle.inReset = false)
    ∧ (testIdle.haltsSettled)
    ∧ (syncingSlot? testIdle = none)
    ∧ ((testAt 39 testSyncing).inReset = false)
    ∧ ((testAt 39 testSyncing).haltsSettled)
    ∧ (syncingSlot? (testAt 39 testSyncing) = some 0 ∧ (testAt 39 testSyncing).xsyncRun
      = some 0 ∧ (testAt 39 testSyncing).now < 0 + 40)
    ∧ ((testAt 40 testSyncing).inReset = false)
    ∧ ((testAt 40 testSyncing).haltsSettled)
    ∧ (syncingSlot? (testAt 40 testSyncing) = some 0 ∧ (testAt 40 testSyncing).xsyncRun
      = some 0 ∧ 0 + 40 ≤ (testAt 40 testSyncing).now)
    ∧ (∃ sl ∈ (testAt 40 testSyncing).slots[(0 : SlotIx)], ∀ c ∈ chansOf sl.members, ((testAt 40 testSyncing).chan c).state
      = .waiting ∧ ((testAt 40 testSyncing).chan c).queue = [.marker 0])
    ∧ (((testAt 40 testSyncing).modChan 0 fun ch => { ch with queue := ch.queue ++ [.move (testEntry 100)] }).inReset
      = false)
    ∧ (((testAt 40 testSyncing).modChan 0 fun ch => { ch with queue := ch.queue ++ [.move (testEntry 100)] }).haltsSettled)
    ∧ (syncingSlot? ((testAt 40 testSyncing).modChan 0 fun ch => { ch with queue := ch.queue ++ [.move (testEntry 100)] })
      = some 0 ∧ ((testAt 40 testSyncing).modChan 0 fun ch => { ch with queue := ch.queue ++ [.move (testEntry 100)] }).xsyncRun
      = some 0 ∧ 0 + 40 ≤ ((testAt 40 testSyncing).modChan 0 fun ch => { ch with queue := ch.queue ++ [.move (testEntry 100)] }).now)
    ∧ (∃ sl ∈ ((testAt 40 testSyncing).modChan 0 fun ch => { ch with queue := ch.queue ++ [.move (testEntry 100)] }).slots[(0 : SlotIx)], ∀ c ∈ chansOf sl.members, (((testAt 40 testSyncing).modChan 0 fun ch => { ch with queue := ch.queue ++ [.move (testEntry 100)] }).chan c).state
      = .waiting ∧ (((testAt 40 testSyncing).modChan 0 fun ch => { ch with queue := ch.queue ++ [.move (testEntry 100)] }).chan c).queue
      = .marker 0 :: [.move (testEntry 100)])
    ∧ (testGathering.inReset = false)
    ∧ (testGathering.haltsSettled)
    ∧ (∀ sl ∈ testGathering.slots[(0 : SlotIx)], ∀ e ∈ sl.expiry, sl.state ≠ .opened → testGathering.now < e)
    ∧ ((testAt 200000 testWaiting).inReset = false)
    ∧ ((testAt 200000 testWaiting).haltsSettled)
    ∧ (∃ sl ∈ (testAt 200000 testWaiting).slots[(0 : SlotIx)], sl.state
      = .gathering ∧ sl.expiry = some 200000 ∧ 200000 ≤ (testAt 200000 testWaiting).now
      ∧ (testAt 200000 testWaiting).estopLatch = false ∧ (chansOf sl.members)
      = [0, 1])
    ∧ (((testAt 200000 testWaiting).chan 0).shaped = true ∧ ((testAt 200000 testWaiting).chan 0).state
      = .waiting ∧ ((testAt 200000 testWaiting).chan 1).shaped = true ∧ ((testAt 200000 testWaiting).chan 1).state
      = .dwelling)
    ∧ ((testAt 200000 testGathering).inReset = false)
    ∧ ((testAt 200000 testGathering).haltsSettled)
    ∧ (∃ sl ∈ (testAt 200000 testGathering).slots[(0 : SlotIx)], sl.state
      = .gathering ∧ sl.expiry = some 200000 ∧ 200000 ≤ (testAt 200000 testGathering).now
      ∧ (testAt 200000 testGathering).estopLatch = false ∧ (chansOf sl.members)
      = [0, 1])
    ∧ (((testAt 200000 testGathering).chan 0).shaped = true ∧ ((testAt 200000 testGathering).chan 0).state
      = .waiting ∧ ((testAt 200000 testGathering).chan 1).shaped = true
      ∧ ((testAt 200000 testGathering).chan 1).state = .running ∧ ((testAt 200000 testGathering).chan 1).pgn.emitted
      ≠ 0)
    ∧ (∀ c j, hasChan 3 c = true → .marker j ∈ ((testAt 200000 testGathering).chan c).queue → j = 0)
    ∧ ((testAt 200000 testSyncing).inReset = false)
    ∧ ((testAt 200000 testSyncing).haltsSettled)
    ∧ (∃ sl ∈ (testAt 200000 testSyncing).slots[(0 : SlotIx)], sl.state
      = .syncing ∧ sl.expiry = some 200000 ∧ 200000 ≤ (testAt 200000 testSyncing).now
      ∧ (testAt 200000 testSyncing).estopLatch = false ∧ (chansOf sl.members)
      = [0])
    ∧ ((∀ sl ∈ testGathering.slots[(0 : SlotIx)], hasChan sl.members 2 = false)
      ∧ ∃ sl ∈ testGathering.slots[(0 : SlotIx)], hasChan sl.members 1 = true)
    ∧ (testGathering.estopLatch = false ∧ testGathering.part = .running) :=
  ⟨test_facts_18.1,
    test_facts_18.2.1,
    test_facts_24.2.2.2.2.2.1,
    test_facts_24.2.2.2.2.2.2.1,
    test_facts_24.2.2.2.2.2.2.2.1,
    test_facts_24.2.2.2.2.2.2.2.2.1,
    test_facts_24.2.2.2.2.2.2.2.2.2.1,
    test_facts_24.2.2.2.2.2.2.2.2.2.2.1,
    test_facts_24.2.2.2.2.2.2.2.2.2.2.2.1,
    test_facts_24.2.2.2.2.2.2.2.2.2.2.2.2.1,
    test_facts_24.2.2.2.2.2.2.2.2.2.2.2.2.2.1,
    test_facts_24.2.2.2.2.2.2.2.2.2.2.2.2.2.2.1,
    test_facts_24.2.2.2.2.2.2.2.2.2.2.2.2.2.2.2.1,
    test_facts_24.2.2.2.2.2.2.2.2.2.2.2.2.2.2.2.2.1,
    test_facts_24.2.2.2.2.2.2.2.2.2.2.2.2.2.2.2.2.2.1,
    test_facts_24.2.2.2.2.2.2.2.2.2.2.2.2.2.2.2.2.2.2.1,
    test_facts_24.2.2.2.2.2.2.2.2.2.2.2.2.2.2.2.2.2.2.2,
    test_facts_25.1,
    test_facts_25.2.1,
    test_facts_25.2.2.1,
    test_facts_25.2.2.2.1,
    test_facts_25.2.2.2.2.1,
    test_facts_25.2.2.2.2.2.1,
    test_facts_25.2.2.2.2.2.2.1,
    test_facts_25.2.2.2.2.2.2.2.1,
    test_facts_25.2.2.2.2.2.2.2.2.1,
    test_facts_25.2.2.2.2.2.2.2.2.2.1,
    test_facts_25.2.2.2.2.2.2.2.2.2.2.1,
    test_facts_25.2.2.2.2.2.2.2.2.2.2.2.1,
    test_facts_25.2.2.2.2.2.2.2.2.2.2.2.2.1,
    test_facts_25.2.2.2.2.2.2.2.2.2.2.2.2.2.1⟩

theorem test_meets_RateLawArithmetic :
    (testCfg.valid = true ∧ 1 ≤ 100000 ∧ 100000 ≤ testCfg.maxRate)
    ∧ (1 ≤ (testEntry 5).profile.b)
    ∧ (testEntry12.exitRate = some 800 ∧ bindingCandidate (testBound.chan 0).queue.tail 1
      = some (.move (testEntry 50), 1) ∧ decideBinding (testBound.chan 0) testEntry12 { endPos := 100, steps := 100, positive := true }
      = .bound 800 100 1 { endPos := 150, steps := 50, positive := true })
    ∧ (bindingCandidate (testRunning.chan 0).queue.tail 1 = none) :=
  ⟨test_facts_25.2.2.2.2.2.2.2.2.2.2.2.2.2.2.1,
    test_facts_25.2.2.2.2.2.2.2.2.2.2.2.2.2.2.2.1,
    test_facts_25.2.2.2.2.2.2.2.2.2.2.2.2.2.2.2.2.1,
    test_facts_25.2.2.2.2.2.2.2.2.2.2.2.2.2.2.2.2.2.1⟩

set_option maxRecDepth 4000 in
theorem test_meets_StepEmissionAndNextRate :
    (testStepNext.inReset = false)
    ∧ (testStepNext.haltsSettled)
    ∧ ((testStepNext.chan 0).pgn.schedule = some { due := 283687, rateSq := 20000 } ∧ testStepNext.now < 283687)
    ∧ ((testAt 283687 testStepNext).inReset = false)
    ∧ ((testAt 283687 testStepNext).haltsSettled)
    ∧ (((testAt 283687 testStepNext).chan 0).pgn.schedule = some { due := 283687, rateSq := 20000 }
      ∧ 283687 ≤ (testAt 283687 testStepNext).now ∧ (((testAt 283687 testStepNext).chan 0).state
      = .running ∨ ((testAt 283687 testStepNext).chan 0).state = .stopping))
    ∧ (((testAt 283687 testStepNext).chan 0).headMove? = some (testEntry 100)
      ∧ 1 ≤ ((testAt 283687 testStepNext).chan 0).pgn.remaining)
    ∧ (NoneFires (testAt 283687 testStepNext) 0 2 true)
    ∧ (1 ≤ ((testAt 283687 testStepNext).chan 0).pgn.remaining - 1 ∧ ((testAt 283687 testStepNext).chan 0).pgn.stopMode
      ≠ .decel ∧ ((testAt 283687 testStepNext).chan 0).binding ≠ .pending
      ∧ ((testAt 283687 testStepNext).chan 0).pgn.phase ≠ .final)
    ∧ (stepsDown (candidateSq 20000 ((testEntry 100).profile.vc ^ 2) (testEntry 100).profile.a (testEntry 100).profile.b) (exitTarget ((testAt 283687 testStepNext).chan 0).binding (testEntry 100) ^ 2) (testEntry 100).profile.b
      ≤ ((testAt 283687 testStepNext).chan 0).pgn.remaining - 1 - 1)
    ∧ ((testAt 283687 (testStepWith fun p => { p with remaining := 1 })).inReset = false)
    ∧ ((testAt 283687 (testStepWith fun p => { p with remaining := 1 })).haltsSettled)
    ∧ (((testAt 283687 (testStepWith fun p => { p with remaining := 1 })).chan 0).pgn.schedule
      = some { due := 283687, rateSq := 20000 } ∧ 283687 ≤ (testAt 283687 (testStepWith fun p => { p with remaining := 1 })).now
      ∧ (((testAt 283687 (testStepWith fun p => { p with remaining := 1 })).chan 0).state
      = .running ∨ ((testAt 283687 (testStepWith fun p => { p with remaining := 1 })).chan 0).state
      = .stopping))
    ∧ (((testAt 283687 (testStepWith fun p => { p with remaining := 1 })).chan 0).headMove?
      = some (testEntry 100) ∧ 1 ≤ ((testAt 283687 (testStepWith fun p => { p with remaining := 1 })).chan 0).pgn.remaining)
    ∧ (NoneFires (testAt 283687 (testStepWith fun p => { p with remaining := 1 })) 0 2 true)
    ∧ (((testAt 283687 (testStepWith fun p => { p with remaining := 1 })).chan 0).pgn.remaining - 1 = 0)
    ∧ ((testAt 283687 (testStepWith fun p => { p with phase := .final })).inReset = false)
    ∧ ((testAt 283687 (testStepWith fun p => { p with phase := .final })).haltsSettled)
    ∧ (((testAt 283687 (testStepWith fun p => { p with phase := .final })).chan 0).pgn.schedule
      = some { due := 283687, rateSq := 20000 } ∧ 283687 ≤ (testAt 283687 (testStepWith fun p => { p with phase := .final })).now
      ∧ (((testAt 283687 (testStepWith fun p => { p with phase := .final })).chan 0).state
      = .running ∨ ((testAt 283687 (testStepWith fun p => { p with phase := .final })).chan 0).state
      = .stopping))
    ∧ (((testAt 283687 (testStepWith fun p => { p with phase := .final })).chan 0).headMove?
      = some (testEntry 100) ∧ 1 ≤ ((testAt 283687 (testStepWith fun p => { p with phase := .final })).chan 0).pgn.remaining)
    ∧ (NoneFires (testAt 283687 (testStepWith fun p => { p with phase := .final })) 0 2 true)
    ∧ (1 ≤ ((testAt 283687 (testStepWith fun p => { p with phase := .final })).chan 0).pgn.remaining - 1
      ∧ ((testAt 283687 (testStepWith fun p => { p with phase := .final })).chan 0).pgn.phase
      = .final)
    ∧ ((testAt 283687 (testStepWith fun p => { p with remaining := 2 })).inReset = false)
    ∧ ((testAt 283687 (testStepWith fun p => { p with remaining := 2 })).haltsSettled)
    ∧ (((testAt 283687 (testStepWith fun p => { p with remaining := 2 })).chan 0).pgn.schedule
      = some { due := 283687, rateSq := 20000 } ∧ 283687 ≤ (testAt 283687 (testStepWith fun p => { p with remaining := 2 })).now
      ∧ (((testAt 283687 (testStepWith fun p => { p with remaining := 2 })).chan 0).state
      = .running ∨ ((testAt 283687 (testStepWith fun p => { p with remaining := 2 })).chan 0).state
      = .stopping))
    ∧ (((testAt 283687 (testStepWith fun p => { p with remaining := 2 })).chan 0).headMove?
      = some (testEntry 100) ∧ 1 ≤ ((testAt 283687 (testStepWith fun p => { p with remaining := 2 })).chan 0).pgn.remaining)
    ∧ (NoneFires (testAt 283687 (testStepWith fun p => { p with remaining := 2 })) 0 2 true)
    ∧ (1 ≤ ((testAt 283687 (testStepWith fun p => { p with remaining := 2 })).chan 0).pgn.remaining - 1
      ∧ ((testAt 283687 (testStepWith fun p => { p with remaining := 2 })).chan 0).pgn.phase
      ≠ .final ∧ ((testAt 283687 (testStepWith fun p => { p with remaining := 2 })).chan 0).pgn.remaining - 1 - 1
      < stepsDown (candidateSq 20000 ((testEntry 100).profile.vc ^ 2) (testEntry 100).profile.a (testEntry 100).profile.b) (exitTarget ((testAt 283687 (testStepWith fun p => { p with remaining := 2 })).chan 0).binding (testEntry 100) ^ 2) (testEntry 100).profile.b)
    ∧ ((testAt 283687 testPending).inReset = false)
    ∧ ((testAt 283687 testPending).haltsSettled)
    ∧ (((testAt 283687 testPending).chan 0).pgn.schedule = some { due := 283687, rateSq := 20000 }
      ∧ 283687 ≤ (testAt 283687 testPending).now ∧ (((testAt 283687 testPending).chan 0).state
      = .running ∨ ((testAt 283687 testPending).chan 0).state = .stopping))
    ∧ (NoneFires (testAt 283687 testPending) 0 2 true)
    ∧ (((testAt 283687 testPending).chan 0).headMove? = some testChainEntry
      ∧ 1 ≤ ((testAt 283687 testPending).chan 0).pgn.remaining - 1 ∧ ((testAt 283687 testPending).chan 0).pgn.stopMode
      ≠ .decel ∧ ((testAt 283687 testPending).chan 0).pgn.phase ≠ .final
      ∧ ((testAt 283687 testPending).chan 0).binding = .pending ∧ ((testAt 283687 testPending).chan 0).resolved
      = some { endPos := 100, steps := 100, positive := true })
    ∧ (((testAt 283687 testPending).chan 0).pgn.remaining - 1 ≠ 1 ∧ stepsDown (candidateSq 20000 (testChainEntry.profile.vc ^ 2) testChainEntry.profile.a testChainEntry.profile.b) (testChainEntry.profile.vs ^ 2) testChainEntry.profile.b
      ≤ ((testAt 283687 testPending).chan 0).pgn.remaining - 1 - 1)
    ∧ ((testAt 283687 (testPending.modChan 0 fun ch => { ch with pgn := { ch.pgn with remaining := 2 } })).inReset
      = false)
    ∧ ((testAt 283687 (testPending.modChan 0 fun ch => { ch with pgn := { ch.pgn with remaining := 2 } })).haltsSettled)
    ∧ (((testAt 283687 (testPending.modChan 0 fun ch => { ch with pgn := { ch.pgn with remaining := 2 } })).chan 0).pgn.schedule
      = some { due := 283687, rateSq := 20000 } ∧ 283687 ≤ (testAt 283687 (testPending.modChan 0 fun ch => { ch with pgn := { ch.pgn with remaining := 2 } })).now
      ∧ (((testAt 283687 (testPending.modChan 0 fun ch => { ch with pgn := { ch.pgn with remaining := 2 } })).chan 0).state
      = .running ∨ ((testAt 283687 (testPending.modChan 0 fun ch => { ch with pgn := { ch.pgn with remaining := 2 } })).chan 0).state
      = .stopping))
    ∧ (NoneFires (testAt 283687 (testPending.modChan 0 fun ch => { ch with pgn := { ch.pgn with remaining := 2 } })) 0 2 true)
    ∧ (((testAt 283687 (testPending.modChan 0 fun ch => { ch with pgn := { ch.pgn with remaining := 2 } })).chan 0).headMove?
      = some testChainEntry ∧ 1 ≤ ((testAt 283687 (testPending.modChan 0 fun ch => { ch with pgn := { ch.pgn with remaining := 2 } })).chan 0).pgn.remaining - 1
      ∧ ((testAt 283687 (testPending.modChan 0 fun ch => { ch with pgn := { ch.pgn with remaining := 2 } })).chan 0).pgn.stopMode
      ≠ .decel ∧ ((testAt 283687 (testPending.modChan 0 fun ch => { ch with pgn := { ch.pgn with remaining := 2 } })).chan 0).pgn.phase
      ≠ .final ∧ ((testAt 283687 (testPending.modChan 0 fun ch => { ch with pgn := { ch.pgn with remaining := 2 } })).chan 0).binding
      = .pending ∧ ((testAt 283687 (testPending.modChan 0 fun ch => { ch with pgn := { ch.pgn with remaining := 2 } })).chan 0).resolved
      = some { endPos := 100, steps := 100, positive := true })
    ∧ (((testAt 283687 (testPending.modChan 0 fun ch => { ch with pgn := { ch.pgn with remaining := 2 } })).chan 0).pgn.remaining - 1
      = 1)
    ∧ ((testAt 283687 testStopFast).inReset = false)
    ∧ ((testAt 283687 testStopFast).haltsSettled)
    ∧ (((testAt 283687 testStopFast).chan 0).pgn.schedule = some { due := 283687, rateSq := 20000 }
      ∧ 283687 ≤ (testAt 283687 testStopFast).now ∧ (((testAt 283687 testStopFast).chan 0).state
      = .running ∨ ((testAt 283687 testStopFast).chan 0).state = .stopping))
    ∧ (((testAt 283687 testStopFast).chan 0).headMove? = some (testEntry 100)
      ∧ 1 ≤ ((testAt 283687 testStopFast).chan 0).pgn.remaining)
    ∧ (NoneFires (testAt 283687 testStopFast) 0 2 true)
    ∧ (1 ≤ ((testAt 283687 testStopFast).chan 0).pgn.remaining - 1 ∧ ((testAt 283687 testStopFast).chan 0).pgn.stopMode
      = .decel ∧ (testEntry 100).profile.vs ^ 2 < 20000)
    ∧ (((testRunning.done .main 3 7 .cancelled .clear 0 5 0 0).showing testRunning 0).shows
      = some (0, testRunning.now) ∧ ((testRunning.done .main 3 7 .cancelled .clear 0 5 0 0).showing testRunning 0).status
      = .cancelled ∧ ((testRunning.done .main 3 7 .cancelled .clear 0 5 0 0).showing testRunning 0).kind
      = 3)
    ∧ (((testRunning.done .main 23 7 .ok .clear 0 5 0 0).showing testRunning 0).shows
      = some (0, testRunning.now) ∧ ((testRunning.done .main 23 7 .ok .clear 0 5 0 0).showing testRunning 0).status
      ≠ .cancelled)
    ∧ (testNopDone.posting.map (·.shows) = [none]) :=
  ⟨test_facts_0.2.2.2.2.2.2.2.2.2.2.1,
    test_facts_25.2.2.2.2.2.2.2.2.2.2.2.2.2.2.2.2.2.2.1,
    test_facts_25.2.2.2.2.2.2.2.2.2.2.2.2.2.2.2.2.2.2.2,
    test_facts_26.1,
    test_facts_26.2.1,
    test_facts_26.2.2.1,
    test_facts_26.2.2.2.1,
    test_none test_facts_26.2.2.2.2.1,
    test_facts_26.2.2.2.2.2.1,
    test_facts_26.2.2.2.2.2.2.1,
    test_facts_26.2.2.2.2.2.2.2.1,
    test_facts_26.2.2.2.2.2.2.2.2.1,
    test_facts_26.2.2.2.2.2.2.2.2.2.1,
    test_facts_26.2.2.2.2.2.2.2.2.2.2.1,
    test_none test_facts_26.2.2.2.2.2.2.2.2.2.2.2.1,
    test_facts_26.2.2.2.2.2.2.2.2.2.2.2.2.1,
    test_facts_26.2.2.2.2.2.2.2.2.2.2.2.2.2.1,
    test_facts_26.2.2.2.2.2.2.2.2.2.2.2.2.2.2.1,
    test_facts_26.2.2.2.2.2.2.2.2.2.2.2.2.2.2.2.1,
    test_facts_26.2.2.2.2.2.2.2.2.2.2.2.2.2.2.2.2.1,
    test_none test_facts_26.2.2.2.2.2.2.2.2.2.2.2.2.2.2.2.2.2.1,
    test_facts_26.2.2.2.2.2.2.2.2.2.2.2.2.2.2.2.2.2.2.1,
    test_facts_26.2.2.2.2.2.2.2.2.2.2.2.2.2.2.2.2.2.2.2,
    test_facts_27.1,
    test_facts_27.2.1,
    test_facts_27.2.2.1,
    test_none test_facts_27.2.2.2.1,
    test_facts_27.2.2.2.2.1,
    test_facts_27.2.2.2.2.2.1,
    test_facts_27.2.2.2.2.2.2.1,
    test_facts_27.2.2.2.2.2.2.2.1,
    test_none test_facts_27.2.2.2.2.2.2.2.2.1,
    test_facts_27.2.2.2.2.2.2.2.2.2.1,
    test_facts_27.2.2.2.2.2.2.2.2.2.2.1,
    test_facts_27.2.2.2.2.2.2.2.2.2.2.2.1,
    test_facts_27.2.2.2.2.2.2.2.2.2.2.2.2.1,
    test_facts_27.2.2.2.2.2.2.2.2.2.2.2.2.2.1,
    test_none test_facts_27.2.2.2.2.2.2.2.2.2.2.2.2.2.2.1,
    test_facts_27.2.2.2.2.2.2.2.2.2.2.2.2.2.2.2.1,
    test_facts_27.2.2.2.2.2.2.2.2.2.2.2.2.2.2.2.2.1,
    test_facts_27.2.2.2.2.2.2.2.2.2.2.2.2.2.2.2.2.2.1,
    test_facts_27.2.2.2.2.2.2.2.2.2.2.2.2.2.2.2.2.2.2.1,
    test_facts_27.2.2.2.2.2.2.2.2.2.2.2.2.2.2.2.2.2.2.2,
    test_facts_28.1,
    test_none test_facts_28.2.1,
    test_facts_28.2.2.1,
    test_facts_28.2.2.2.1,
    test_facts_28.2.2.2.2.1,
    test_facts_28.2.2.2.2.2.1⟩

set_option maxRecDepth 4000 in
theorem test_meets_SettleEndEmitsTheFirstStep :
    (testSettling.inReset = false)
    ∧ (testSettling.haltsSettled)
    ∧ ((testSettling.chan 0).pgn.settleEnd = some 200 ∧ testSettling.now < 200)
    ∧ ((testAt 200 testSettling).inReset = false)
    ∧ ((testAt 200 testSettling).haltsSettled)
    ∧ (((testAt 200 testSettling).chan 0).state = .running ∧ ((testAt 200 testSettling).chan 0).pgn.phase
      = .settle ∧ ((testAt 200 testSettling).chan 0).pgn.settleEnd = some 200
      ∧ 200 ≤ (testAt 200 testSettling).now ∧ ((testAt 200 testSettling).chan 0).headMove?
      = some (testEntry 4294967294))
    ∧ (holdUntil ((testAt 200 testSettling).chan 0) ≤ (testAt 200 testSettling).now)
    ∧ (NoneFires (testAt 200 testSettling) 0 4294967295 false)
    ∧ ((testAt 200 testSettleHeld).inReset = false)
    ∧ ((testAt 200 testSettleHeld).haltsSettled)
    ∧ (((testAt 200 testSettleHeld).chan 0).state = .running ∧ ((testAt 200 testSettleHeld).chan 0).pgn.phase
      = .settle ∧ ((testAt 200 testSettleHeld).chan 0).pgn.settleEnd = some 200
      ∧ 200 ≤ (testAt 200 testSettleHeld).now ∧ ((testAt 200 testSettleHeld).chan 0).headMove?
      = some (testEntry 4294967294))
    ∧ ((testAt 200 testSettleHeld).now < holdUntil ((testAt 200 testSettleHeld).chan 0))
    ∧ ((testPending.chan 0).headMove? = some testChainEntry ∧ (testPending.chan 0).binding
      = .pending ∧ (testPending.chan 0).resolved = some { endPos := 100, steps := 100, positive := true })
    ∧ (stepsDown 10000 (testChainEntry.profile.vs ^ 2) testChainEntry.profile.b
      ≤ (testPending.chan 0).pgn.remaining - 1)
    ∧ (((testPending.modChan 0 fun ch => { ch with pgn := { ch.pgn with remaining := 2 } }).chan 0).headMove?
      = some testChainEntry ∧ ((testPending.modChan 0 fun ch => { ch with pgn := { ch.pgn with remaining := 2 } }).chan 0).binding
      = .pending ∧ ((testPending.modChan 0 fun ch => { ch with pgn := { ch.pgn with remaining := 2 } }).chan 0).resolved
      = some { endPos := 100, steps := 100, positive := true })
    ∧ (stepsDown 1000000 (testChainEntry.profile.vs ^ 2) testChainEntry.profile.b > ((testPending.modChan 0 fun ch => { ch with pgn := { ch.pgn with remaining := 2 } }).chan 0).pgn.remaining - 1)
    ∧ ((boundaryZero (testBound.chan 0) 10000).binding = .bound 500 100 1 { endPos := 150, steps := 50, positive := true }
      ∧ (boundaryZero (testRunning.chan 0) 10000).headBound = false) :=
  ⟨test_facts_28.2.2.2.2.2.2.1,
    test_facts_28.2.2.2.2.2.2.2.1,
    test_facts_28.2.2.2.2.2.2.2.2.1,
    test_facts_28.2.2.2.2.2.2.2.2.2.1,
    test_facts_28.2.2.2.2.2.2.2.2.2.2.1,
    test_facts_28.2.2.2.2.2.2.2.2.2.2.2.1,
    test_facts_28.2.2.2.2.2.2.2.2.2.2.2.2.1,
    test_none test_facts_28.2.2.2.2.2.2.2.2.2.2.2.2.2.1,
    test_facts_28.2.2.2.2.2.2.2.2.2.2.2.2.2.2.1,
    test_facts_28.2.2.2.2.2.2.2.2.2.2.2.2.2.2.2.1,
    test_facts_28.2.2.2.2.2.2.2.2.2.2.2.2.2.2.2.2.1,
    test_facts_28.2.2.2.2.2.2.2.2.2.2.2.2.2.2.2.2.2.1,
    test_facts_28.2.2.2.2.2.2.2.2.2.2.2.2.2.2.2.2.2.2.1,
    test_facts_28.2.2.2.2.2.2.2.2.2.2.2.2.2.2.2.2.2.2.2,
    test_facts_29.1,
    test_facts_29.2.1,
    test_facts_29.2.2.1⟩

theorem test_meets_PulseEndBringsRest :
    (testRunning.inReset = false)
    ∧ (testRunning.haltsSettled)
    ∧ ((testRunning.chan 0).pgn.pulseEnd = some 200 ∧ testRunning.now < 200)
    ∧ ((testAt 200 testRunning).inReset = false)
    ∧ ((testAt 200 testRunning).haltsSettled)
    ∧ (((testAt 200 testRunning).chan 0).pgn.pulseEnd = some 200 ∧ 200 ≤ (testAt 200 testRunning).now)
    ∧ (((testAt 200 testRunning).chan 0).pgn.stopMode ≠ .abrupt ∧ ((testAt 200 testRunning).chan 0).state ≠ .held)
    ∧ ((testAt 200 testPulseHeld).inReset = false)
    ∧ ((testAt 200 testPulseHeld).haltsSettled)
    ∧ (((testAt 200 testPulseHeld).chan 0).pgn.pulseEnd = some 200 ∧ 200 ≤ (testAt 200 testPulseHeld).now)
    ∧ (((testAt 200 testPulseHeld).chan 0).pgn.stopMode = .abrupt ∧ ((testAt 200 testPulseHeld).chan 0).kept
      ≠ none ∧ ((testAt 200 testPulseHeld).chan 0).state = .held ∧ (testAt 200 testPulseHeld).halts
      ≠ [] ∧ haltsAfterRest (testAt 200 testPulseHeld) 0 = []) :=
  ⟨test_facts_18.2.2.2.2.2.2.2.2.2.2.1,
    test_facts_18.2.2.2.2.2.2.2.2.2.2.2.1,
    test_facts_29.2.2.2.1,
    test_facts_29.2.2.2.2.1,
    test_facts_29.2.2.2.2.2.1,
    test_facts_29.2.2.2.2.2.2.1,
    test_facts_29.2.2.2.2.2.2.2.1,
    test_facts_29.2.2.2.2.2.2.2.2.1,
    test_facts_29.2.2.2.2.2.2.2.2.2.1,
    test_facts_29.2.2.2.2.2.2.2.2.2.2.1,
    test_facts_29.2.2.2.2.2.2.2.2.2.2.2.1⟩

set_option maxRecDepth 4000 in
theorem test_meets_SegmentEndCompletesTheHead :
    (testLastEnd.inReset = false)
    ∧ (testLastEnd.haltsSettled)
    ∧ ((testLastEnd.chan 0).pgn.lastEnd = some 900 ∧ testLastEnd.now < 900)
    ∧ ((testAt 900 testLastEnd).inReset = false)
    ∧ ((testAt 900 testLastEnd).haltsSettled)
    ∧ (((testAt 900 testLastEnd).chan 0).state = .running ∧ ((testAt 900 testLastEnd).chan 0).pgn.remaining
      = 0 ∧ ((testAt 900 testLastEnd).chan 0).pgn.lastEnd = some 900 ∧ 900
      ≤ (testAt 900 testLastEnd).now)
    ∧ (((testAt 900 testLastEnd).chan 0).queue = .move (testEntry 100) :: []
      ∧ ((testAt 900 testLastEnd).chan 0).headBound = false)
    ∧ (((testAt 900 testLastEnd).modChan 0 fun ch => { ch with queue := ch.queue ++ [.dwell 1 1, .move (testEntry 50)] }).inReset
      = false)
    ∧ (((testAt 900 testLastEnd).modChan 0 fun ch => { ch with queue := ch.queue ++ [.dwell 1 1, .move (testEntry 50)] }).haltsSettled)
    ∧ ((((testAt 900 testLastEnd).modChan 0 fun ch => { ch with queue := ch.queue ++ [.dwell 1 1, .move (testEntry 50)] }).chan 0).state
      = .running ∧ (((testAt 900 testLastEnd).modChan 0 fun ch => { ch with queue := ch.queue ++ [.dwell 1 1, .move (testEntry 50)] }).chan 0).pgn.remaining
      = 0 ∧ (((testAt 900 testLastEnd).modChan 0 fun ch => { ch with queue := ch.queue ++ [.dwell 1 1, .move (testEntry 50)] }).chan 0).pgn.lastEnd
      = some 900 ∧ 900 ≤ ((testAt 900 testLastEnd).modChan 0 fun ch => { ch with queue := ch.queue ++ [.dwell 1 1, .move (testEntry 50)] }).now)
    ∧ ((((testAt 900 testLastEnd).modChan 0 fun ch => { ch with queue := ch.queue ++ [.dwell 1 1, .move (testEntry 50)] }).chan 0).queue
      = .move (testEntry 100) :: [.dwell 1 1, .move (testEntry 50)] ∧ (((testAt 900 testLastEnd).modChan 0 fun ch => { ch with queue := ch.queue ++ [.dwell 1 1, .move (testEntry 50)] }).chan 0).headBound
      = false)
    ∧ ((testAt 900 testBoundEnd).inReset = false)
    ∧ ((testAt 900 testBoundEnd).haltsSettled)
    ∧ (((testAt 900 testBoundEnd).chan 0).state = .running ∧ ((testAt 900 testBoundEnd).chan 0).pgn.remaining
      = 0 ∧ ((testAt 900 testBoundEnd).chan 0).pgn.lastEnd = some 900 ∧ 900
      ≤ (testAt 900 testBoundEnd).now)
    ∧ (((testAt 900 testBoundEnd).chan 0).binding = .bound 500 100 ((([] : List Entry)).length + 1) { endPos := 150, steps := 50, positive := true }
      ∧ ((testAt 900 testBoundEnd).chan 0).queue = .move testEntry12 :: ([] ++ .move (testEntry 50) :: []))
    ∧ (holdUntil ((testAt 900 testBoundEnd).chan 0) ≤ (testAt 900 testBoundEnd).now)
    ∧ (NoneFires (testAt 900 testBoundEnd) 0 2 true)
    ∧ (((testAt 900 testBoundEnd).modChan 0 fun ch => { ch with queue := [.move testEntry12, .mark 11 1 2, .mark 12 2 0, .move (testEntry 50)], binding := .bound 500 100 3 { endPos := 150, steps := 50, positive := true } }).inReset
      = false)
    ∧ (((testAt 900 testBoundEnd).modChan 0 fun ch => { ch with queue := [.move testEntry12, .mark 11 1 2, .mark 12 2 0, .move (testEntry 50)], binding := .bound 500 100 3 { endPos := 150, steps := 50, positive := true } }).haltsSettled)
    ∧ ((((testAt 900 testBoundEnd).modChan 0 fun ch => { ch with queue := [.move testEntry12, .mark 11 1 2, .mark 12 2 0, .move (testEntry 50)], binding := .bound 500 100 3 { endPos := 150, steps := 50, positive := true } }).chan 0).state
      = .running ∧ (((testAt 900 testBoundEnd).modChan 0 fun ch => { ch with queue := [.move testEntry12, .mark 11 1 2, .mark 12 2 0, .move (testEntry 50)], binding := .bound 500 100 3 { endPos := 150, steps := 50, positive := true } }).chan 0).pgn.remaining
      = 0 ∧ (((testAt 900 testBoundEnd).modChan 0 fun ch => { ch with queue := [.move testEntry12, .mark 11 1 2, .mark 12 2 0, .move (testEntry 50)], binding := .bound 500 100 3 { endPos := 150, steps := 50, positive := true } }).chan 0).pgn.lastEnd
      = some 900 ∧ 900 ≤ ((testAt 900 testBoundEnd).modChan 0 fun ch => { ch with queue := [.move testEntry12, .mark 11 1 2, .mark 12 2 0, .move (testEntry 50)], binding := .bound 500 100 3 { endPos := 150, steps := 50, positive := true } }).now)
    ∧ ((((testAt 900 testBoundEnd).modChan 0 fun ch => { ch with queue := [.move testEntry12, .mark 11 1 2, .mark 12 2 0, .move (testEntry 50)], binding := .bound 500 100 3 { endPos := 150, steps := 50, positive := true } }).chan 0).binding
      = .bound 500 100 (([.mark 11 1 2, .mark 12 2 0] : List Entry).length + 1) { endPos := 150, steps := 50, positive := true }
      ∧ (((testAt 900 testBoundEnd).modChan 0 fun ch => { ch with queue := [.move testEntry12, .mark 11 1 2, .mark 12 2 0, .move (testEntry 50)], binding := .bound 500 100 3 { endPos := 150, steps := 50, positive := true } }).chan 0).queue
      = .move testEntry12 :: ([.mark 11 1 2, .mark 12 2 0] ++ .move (testEntry 50) :: []))
    ∧ (holdUntil (((testAt 900 testBoundEnd).modChan 0 fun ch => { ch with queue := [.move testEntry12, .mark 11 1 2, .mark 12 2 0, .move (testEntry 50)], binding := .bound 500 100 3 { endPos := 150, steps := 50, positive := true } }).chan 0)
      ≤ ((testAt 900 testBoundEnd).modChan 0 fun ch => { ch with queue := [.move testEntry12, .mark 11 1 2, .mark 12 2 0, .move (testEntry 50)], binding := .bound 500 100 3 { endPos := 150, steps := 50, positive := true } }).now)
    ∧ (NoneFires ((testAt 900 testBoundEnd).modChan 0 fun ch => { ch with queue := [.move testEntry12, .mark 11 1 2, .mark 12 2 0, .move (testEntry 50)], binding := .bound 500 100 3 { endPos := 150, steps := 50, positive := true } }) 0 2 true)
    ∧ (((testAt 900 testBoundEnd).modChan 0 fun ch => { ch with pgn := { ch.pgn with stopHold := some 899 } }).inReset
      = false)
    ∧ (((testAt 900 testBoundEnd).modChan 0 fun ch => { ch with pgn := { ch.pgn with stopHold := some 899 } }).haltsSettled)
    ∧ ((((testAt 900 testBoundEnd).modChan 0 fun ch => { ch with pgn := { ch.pgn with stopHold := some 899 } }).chan 0).state
      = .running ∧ (((testAt 900 testBoundEnd).modChan 0 fun ch => { ch with pgn := { ch.pgn with stopHold := some 899 } }).chan 0).pgn.remaining
      = 0 ∧ (((testAt 900 testBoundEnd).modChan 0 fun ch => { ch with pgn := { ch.pgn with stopHold := some 899 } }).chan 0).pgn.lastEnd
      = some 900 ∧ 900 ≤ ((testAt 900 testBoundEnd).modChan 0 fun ch => { ch with pgn := { ch.pgn with stopHold := some 899 } }).now)
    ∧ ((((testAt 900 testBoundEnd).modChan 0 fun ch => { ch with pgn := { ch.pgn with stopHold := some 899 } }).chan 0).binding
      = .bound 500 100 ((([] : List Entry)).length + 1) { endPos := 150, steps := 50, positive := true }
      ∧ (((testAt 900 testBoundEnd).modChan 0 fun ch => { ch with pgn := { ch.pgn with stopHold := some 899 } }).chan 0).queue
      = .move testEntry12 :: ([] ++ .move (testEntry 50) :: []))
    ∧ (((testAt 900 testBoundEnd).modChan 0 fun ch => { ch with pgn := { ch.pgn with stopHold := some 899 } }).now
      < holdUntil (((testAt 900 testBoundEnd).modChan 0 fun ch => { ch with pgn := { ch.pgn with stopHold := some 899 } }).chan 0)) :=
  ⟨test_facts_29.2.2.2.2.2.2.2.2.2.2.2.2.1,
    test_facts_29.2.2.2.2.2.2.2.2.2.2.2.2.2.1,
    test_facts_29.2.2.2.2.2.2.2.2.2.2.2.2.2.2.1,
    test_facts_29.2.2.2.2.2.2.2.2.2.2.2.2.2.2.2.1,
    test_facts_29.2.2.2.2.2.2.2.2.2.2.2.2.2.2.2.2.1,
    test_facts_29.2.2.2.2.2.2.2.2.2.2.2.2.2.2.2.2.2.1,
    test_facts_29.2.2.2.2.2.2.2.2.2.2.2.2.2.2.2.2.2.2.1,
    test_facts_29.2.2.2.2.2.2.2.2.2.2.2.2.2.2.2.2.2.2.2,
    test_facts_30.1,
    test_facts_30.2.1,
    test_facts_30.2.2.1,
    test_facts_30.2.2.2.1,
    test_facts_30.2.2.2.2.1,
    test_facts_30.2.2.2.2.2.1,
    test_facts_30.2.2.2.2.2.2.1,
    test_facts_30.2.2.2.2.2.2.2.1,
    test_none test_facts_30.2.2.2.2.2.2.2.2.1,
    test_facts_30.2.2.2.2.2.2.2.2.2.1,
    test_facts_30.2.2.2.2.2.2.2.2.2.2.1,
    test_facts_30.2.2.2.2.2.2.2.2.2.2.2.1,
    test_facts_30.2.2.2.2.2.2.2.2.2.2.2.2.1,
    test_facts_30.2.2.2.2.2.2.2.2.2.2.2.2.2.1,
    test_none test_facts_30.2.2.2.2.2.2.2.2.2.2.2.2.2.2.1,
    test_facts_30.2.2.2.2.2.2.2.2.2.2.2.2.2.2.2.1,
    test_facts_30.2.2.2.2.2.2.2.2.2.2.2.2.2.2.2.2.1,
    test_facts_30.2.2.2.2.2.2.2.2.2.2.2.2.2.2.2.2.2.1,
    test_facts_30.2.2.2.2.2.2.2.2.2.2.2.2.2.2.2.2.2.2.1,
    test_facts_30.2.2.2.2.2.2.2.2.2.2.2.2.2.2.2.2.2.2.2⟩

theorem test_meets_StopRestHoldsTheChannel :
    (testStopping.inReset = false)
    ∧ (testStopping.haltsSettled)
    ∧ ((testStopping.chan 0).pgn.lastEnd = some 400000 ∧ testStopping.now < 400000)
    ∧ ((testAt 400000 (testAfter (.pulseEnd 0) (testAt 200 testStopping))).inReset = false)
    ∧ ((testAt 400000 (testAfter (.pulseEnd 0) (testAt 200 testStopping))).haltsSettled)
    ∧ (((testAt 400000 (testAfter (.pulseEnd 0) (testAt 200 testStopping))).chan 0).state
      = .stopping ∧ ((testAt 400000 (testAfter (.pulseEnd 0) (testAt 200 testStopping))).chan 0).headMove?
      = some (testEntry 100) ∧ ((testAt 400000 (testAfter (.pulseEnd 0) (testAt 200 testStopping))).chan 0).pgn.lastEnd
      = some 400000 ∧ 400000 ≤ (testAt 400000 (testAfter (.pulseEnd 0) (testAt 200 testStopping))).now)
    ∧ (((testAt 400000 (testAfter (.pulseEnd 0) (testAt 200 testStopping))).chan 0).pgn.remaining
      ≠ 0 ∧ ((testAt 400000 (testAfter (.pulseEnd 0) (testAt 200 testStopping))).chan 0).pgn.pulseEnd
      = none ∧ (testAt 400000 (testAfter (.pulseEnd 0) (testAt 200 testStopping))).halts
      ≠ [] ∧ haltsAfterRest (testAt 400000 (testAfter (.pulseEnd 0) (testAt 200 testStopping))) 0
      = [])
    ∧ ((testAt 900 testStopEnd).inReset = false)
    ∧ ((testAt 900 testStopEnd).haltsSettled)
    ∧ (((testAt 900 testStopEnd).chan 0).state = .stopping ∧ ((testAt 900 testStopEnd).chan 0).headMove?
      = some (testEntry 100) ∧ ((testAt 900 testStopEnd).chan 0).pgn.lastEnd
      = some 900 ∧ 900 ≤ (testAt 900 testStopEnd).now)
    ∧ (((testAt 900 testStopEnd).chan 0).pgn.remaining = 0) :=
  ⟨test_facts_31.1,
    test_facts_31.2.1,
    test_facts_31.2.2.1,
    test_facts_31.2.2.2.1,
    test_facts_31.2.2.2.2.1,
    test_facts_31.2.2.2.2.2.1,
    test_facts_31.2.2.2.2.2.2.1,
    test_facts_31.2.2.2.2.2.2.2.1,
    test_facts_31.2.2.2.2.2.2.2.2.1,
    test_facts_31.2.2.2.2.2.2.2.2.2.1,
    test_facts_31.2.2.2.2.2.2.2.2.2.2.1⟩

set_option maxRecDepth 4000 in
theorem test_meets_TimersExpire :
    (testDwelling.inReset = false)
    ∧ (testDwelling.haltsSettled)
    ∧ ((testDwelling.chan 0).state = .dwelling ∧ (testDwelling.chan 0).queue
      = .dwell 9 10 :: [] ∧ (testDwelling.chan 0).dwellStart = some 0)
    ∧ (testDwelling.now < 0 + 40 * 10)
    ∧ ((testAt 400 testDwelling).inReset = false)
    ∧ ((testAt 400 testDwelling).haltsSettled)
    ∧ (((testAt 400 testDwelling).chan 0).state = .dwelling ∧ ((testAt 400 testDwelling).chan 0).queue
      = .dwell 9 10 :: [] ∧ ((testAt 400 testDwelling).chan 0).dwellStart
      = some 0)
    ∧ (0 + 40 * 10 ≤ (testAt 400 testDwelling).now)
    ∧ (((testAt 400 testDwelling).modChan 0 fun ch => { ch with queue := ch.queue ++ [.move (testEntry 50)] }).inReset
      = false)
    ∧ (((testAt 400 testDwelling).modChan 0 fun ch => { ch with queue := ch.queue ++ [.move (testEntry 50)] }).haltsSettled)
    ∧ ((((testAt 400 testDwelling).modChan 0 fun ch => { ch with queue := ch.queue ++ [.move (testEntry 50)] }).chan 0).state
      = .dwelling ∧ (((testAt 400 testDwelling).modChan 0 fun ch => { ch with queue := ch.queue ++ [.move (testEntry 50)] }).chan 0).queue
      = .dwell 9 10 :: [.move (testEntry 50)] ∧ (((testAt 400 testDwelling).modChan 0 fun ch => { ch with queue := ch.queue ++ [.move (testEntry 50)] }).chan 0).dwellStart
      = some 0)
    ∧ (0 + 40 * 10 ≤ ((testAt 400 testDwelling).modChan 0 fun ch => { ch with queue := ch.queue ++ [.move (testEntry 50)] }).now)
    ∧ (testState17.inReset = false)
    ∧ (testState17.haltsSettled)
    ∧ (testState17.oldest = some 0 ∧ testState17.coalescing = some (8, 1000)
      ∧ testState17.unannounced ≠ 0 ∧ testState17.part = .running)
    ∧ (testState17.now < 0 + 40 * 1000)
    ∧ ((testAt 40000 testState17).inReset = false)
    ∧ ((testAt 40000 testState17).haltsSettled)
    ∧ ((testAt 40000 testState17).oldest = some 0 ∧ (testAt 40000 testState17).coalescing
      = some (8, 1000) ∧ (testAt 40000 testState17).unannounced ≠ 0 ∧ (testAt 40000 testState17).part
      = .running)
    ∧ (0 + 40 * 1000 ≤ (testAt 40000 testState17).now)
    ∧ (testOn.inReset = false)
    ∧ (testOn.haltsSettled)
    ∧ (testOn.oldest = none) :=
  ⟨test_facts_31.2.2.2.2.2.2.2.2.2.2.2.1,
    test_facts_31.2.2.2.2.2.2.2.2.2.2.2.2.1,
    test_facts_31.2.2.2.2.2.2.2.2.2.2.2.2.2.1,
    test_facts_31.2.2.2.2.2.2.2.2.2.2.2.2.2.2.1,
    test_facts_31.2.2.2.2.2.2.2.2.2.2.2.2.2.2.2.1,
    test_facts_31.2.2.2.2.2.2.2.2.2.2.2.2.2.2.2.2.1,
    test_facts_31.2.2.2.2.2.2.2.2.2.2.2.2.2.2.2.2.2.1,
    test_facts_31.2.2.2.2.2.2.2.2.2.2.2.2.2.2.2.2.2.2.1,
    test_facts_31.2.2.2.2.2.2.2.2.2.2.2.2.2.2.2.2.2.2.2,
    test_facts_32.1,
    test_facts_32.2.1,
    test_facts_32.2.2.1,
    test_facts_32.2.2.2.1,
    test_facts_32.2.2.2.2.1,
    test_facts_32.2.2.2.2.2.1,
    test_facts_32.2.2.2.2.2.2.1,
    test_facts_32.2.2.2.2.2.2.2.1,
    test_facts_32.2.2.2.2.2.2.2.2.1,
    test_facts_32.2.2.2.2.2.2.2.2.2.1,
    test_facts_32.2.2.2.2.2.2.2.2.2.2.1,
    test_facts_32.2.2.2.2.2.2.2.2.2.2.2.1,
    test_facts_32.2.2.2.2.2.2.2.2.2.2.2.2.1,
    test_facts_32.2.2.2.2.2.2.2.2.2.2.2.2.2.1⟩

theorem test_meets_FetchesFillTheBuffer :
    (testState18.inReset = false)
    ∧ (testState18.haltsSettled)
    ∧ (testState18.part = .running ∧ (testState18.ring .main).buffer = .empty
      ∧ (testState18.ring .main).suspended = false ∧ (testState18.ring .main).place
      = some { base := 65536, log2 := 6 } ∧ 1 ≤ (testState18.ring .main).posted)
    ∧ (testOn.inReset = false)
    ∧ (testOn.haltsSettled)
    ∧ ((testOn.ring .main).posted = 0)
    ∧ (testState19.inReset = false)
    ∧ (testState19.haltsSettled)
    ∧ ((testState19.ring .main).buffer = .fetching 65536 ∧ testState19.notices < 16)
    ∧ ((testCrowded testState19).inReset = false)
    ∧ ((testCrowded testState19).haltsSettled)
    ∧ (((testCrowded testState19).ring .main).buffer = .fetching 65536 ∧ 16 ≤ (testCrowded testState19).notices) :=
  ⟨test_facts_32.2.2.2.2.2.2.2.2.2.2.2.2.2.2.1,
    test_facts_32.2.2.2.2.2.2.2.2.2.2.2.2.2.2.2.1,
    test_facts_32.2.2.2.2.2.2.2.2.2.2.2.2.2.2.2.2.1,
    test_facts_32.2.2.2.2.2.2.2.2.2.2.2.1,
    test_facts_32.2.2.2.2.2.2.2.2.2.2.2.2.1,
    test_facts_32.2.2.2.2.2.2.2.2.2.2.2.2.2.2.2.2.2.1,
    test_facts_32.2.2.2.2.2.2.2.2.2.2.2.2.2.2.2.2.2.2.1,
    test_facts_32.2.2.2.2.2.2.2.2.2.2.2.2.2.2.2.2.2.2.2,
    test_facts_33.1,
    test_facts_33.2.1,
    test_facts_33.2.2.1,
    test_facts_33.2.2.2.1⟩

set_option maxRecDepth 4000 in
theorem test_meets_CompletionWritesEmptyTheQueue :
    (testNopDone.inReset = false)
    ∧ (testNopDone.haltsSettled)
    ∧ (testNopDone.posting = testNopDone.posting.take 1 ∧ testNopDone.posting.length
      = 1 ∧ testNopDone.cplPlace = some { base := 262144, log2 := 5 } ∧ testNopDone.part
      = .running)
    ∧ (testNopDone.writing = none)
    ∧ ((testNopDone.cplWrite + 2 ^ 5 - testNopDone.cplRetire) % 2 ^ 5 < 2 ^ 5 - 1)
    ∧ ((State.reset).inReset = false)
    ∧ ((State.reset).haltsSettled)
    ∧ (¬((State.reset).part = .running ∨ (State.reset).part = .draining) ∧ (State.reset).writing = none)
    ∧ (testState20.inReset = false)
    ∧ (testState20.haltsSettled)
    ∧ (testState20.posting = testState20.posting.take 1 ∧ testState20.posting.length
      = 1 ∧ testState20.cplPlace = some { base := 262144, log2 := 5 } ∧ testState20.part
      = .running)
    ∧ (¬((testState20.cplWrite + 2 ^ 5 - testState20.cplRetire) % 2 ^ 5 < 2 ^ 5 - 1))
    ∧ (testWriting.inReset = false)
    ∧ (testWriting.haltsSettled)
    ∧ (testWriting.posting = testWriting.posting.take 1 ∧ testWriting.posting.length
      = 1 ∧ testWriting.cplPlace = some { base := 262144, log2 := 5 } ∧ testWriting.part
      = .running)
    ∧ (testWriting.writing ≠ none ∧ testWriting.cplWrite + 1 < 2 ^ 5 ∧ testWriting.coalescing
      = some (8, 1000) ∧ ¬(1000 = 0 ∨ max 8 1 ≤ testWriting.unannounced + 1)
      ∧ testWriting.unannounced = 0)
    ∧ ((testWriting.posting.map Cpl.charged) = [some .main])
    ∧ (2 ^ 5 ≤ testState21.cplWrite + 1 ∧ max 8 1 ≤ testState22.unannounced + 1) :=
  ⟨test_facts_33.2.2.2.2.1,
    test_facts_33.2.2.2.2.2.1,
    test_facts_33.2.2.2.2.2.2.1,
    test_facts_33.2.2.2.2.2.2.2.1,
    test_facts_33.2.2.2.2.2.2.2.2.1,
    test_facts_33.2.2.2.2.2.2.2.2.2.1,
    test_facts_33.2.2.2.2.2.2.2.2.2.2.1,
    test_facts_33.2.2.2.2.2.2.2.2.2.2.2.1,
    test_facts_33.2.2.2.2.2.2.2.2.2.2.2.2.1,
    test_facts_33.2.2.2.2.2.2.2.2.2.2.2.2.2.1,
    test_facts_33.2.2.2.2.2.2.2.2.2.2.2.2.2.2.1,
    test_facts_33.2.2.2.2.2.2.2.2.2.2.2.2.2.2.2.1,
    test_facts_33.2.2.2.2.2.2.2.2.2.2.2.2.2.2.2.2.1,
    test_facts_33.2.2.2.2.2.2.2.2.2.2.2.2.2.2.2.2.2.1,
    test_facts_33.2.2.2.2.2.2.2.2.2.2.2.2.2.2.2.2.2.2.1,
    test_facts_33.2.2.2.2.2.2.2.2.2.2.2.2.2.2.2.2.2.2.2,
    test_facts_34.1,
    test_facts_34.2.1⟩

theorem test_meets_CompletionWriteFaultFailsThePart :
    (testWriting.inReset = false)
    ∧ (testWriting.haltsSettled)
    ∧ (testWriting.queuesShaped)
    ∧ (testWriting.slotsSound)
    ∧ (testWriting.writing ≠ none ∧ testWriting.part = .running) :=
  ⟨test_facts_33.2.2.2.2.2.2.2.2.2.2.2.2.2.2.2.2.1,
    test_facts_33.2.2.2.2.2.2.2.2.2.2.2.2.2.2.2.2.2.1,
    test_facts_34.2.2.1,
    test_sound test_facts_34.2.2.2.1,
    test_facts_34.2.2.2.2.1⟩

set_option maxRecDepth 4000 in
theorem test_meets_SetupReadEndsStarting :
    (testOn.inReset = false)
    ∧ (testOn.haltsSettled)
    ∧ (testOn.part ≠ .starting ∧ testOn.setupRead = none)
    ∧ (testStarting.inReset = false)
    ∧ (testStarting.haltsSettled)
    ∧ (testStarting.part = .starting ∧ testStarting.setupRead ≠ none ∧ testStarting.estop.qualified = false)
    ∧ (¬(∀ i : Fin 64, i.val = 27 ∨ 46 ≤ i.val → blockByte (testSetup.setIfInBounds 63 1) i.val = 0))
    ∧ ((∀ i : Fin 64, i.val = 27 ∨ 46 ≤ i.val → blockByte (testSetup.setIfInBounds 24 13) i.val
      = 0) ∧ ¬(4 ≤ blockField (testSetup.setIfInBounds 24 13) 24 1 ∧ blockField (testSetup.setIfInBounds 24 13) 24 1
      ≤ 12 ∧ 4 ≤ blockField (testSetup.setIfInBounds 24 13) 25 1 ∧ blockField (testSetup.setIfInBounds 24 13) 25 1
      ≤ 8 ∧ 5 ≤ blockField (testSetup.setIfInBounds 24 13) 26 1 ∧ blockField (testSetup.setIfInBounds 24 13) 26 1
      ≤ 13))
    ∧ ((∀ i : Fin 64, i.val = 27 ∨ 46 ≤ i.val → blockByte (testSetup.setIfInBounds 0 1) i.val
      = 0) ∧ (4 ≤ blockField (testSetup.setIfInBounds 0 1) 24 1 ∧ blockField (testSetup.setIfInBounds 0 1) 24 1
      ≤ 12 ∧ 4 ≤ blockField (testSetup.setIfInBounds 0 1) 25 1 ∧ blockField (testSetup.setIfInBounds 0 1) 25 1
      ≤ 8 ∧ 5 ≤ blockField (testSetup.setIfInBounds 0 1) 26 1 ∧ blockField (testSetup.setIfInBounds 0 1) 26 1
      ≤ 13) ∧ ¬(blockField (testSetup.setIfInBounds 0 1) 0 8 % 64 = 0 ∧ blockField (testSetup.setIfInBounds 0 1) 8 8 % 64
      = 0 ∧ blockField (testSetup.setIfInBounds 0 1) 16 8 % 64 = 0))
    ∧ ((∀ i : Fin 64, i.val = 27 ∨ 46 ≤ i.val → blockByte (testSetup.setIfInBounds 37 1) i.val
      = 0) ∧ (4 ≤ blockField (testSetup.setIfInBounds 37 1) 24 1 ∧ blockField (testSetup.setIfInBounds 37 1) 24 1
      ≤ 12 ∧ 4 ≤ blockField (testSetup.setIfInBounds 37 1) 25 1 ∧ blockField (testSetup.setIfInBounds 37 1) 25 1
      ≤ 8 ∧ 5 ≤ blockField (testSetup.setIfInBounds 37 1) 26 1 ∧ blockField (testSetup.setIfInBounds 37 1) 26 1
      ≤ 13) ∧ (blockField (testSetup.setIfInBounds 37 1) 0 8 % 64 = 0 ∧ blockField (testSetup.setIfInBounds 37 1) 8 8 % 64
      = 0 ∧ blockField (testSetup.setIfInBounds 37 1) 16 8 % 64 = 0) ∧ ¬(blockField (testSetup.setIfInBounds 37 1) 28 4
      ≤ 255 ∧ blockField (testSetup.setIfInBounds 37 1) 32 4 ≤ 65535 ∧ ∀ i : CapIx, blockField (testSetup.setIfInBounds 37 1) (36 + 2 * i.val) 2
      ≤ 255))
    ∧ ((∀ i : Fin 64, i.val = 27 ∨ 46 ≤ i.val → blockByte testSetup i.val
      = 0) ∧ (4 ≤ blockField testSetup 24 1 ∧ blockField testSetup 24 1
      ≤ 12 ∧ 4 ≤ blockField testSetup 25 1 ∧ blockField testSetup 25 1 ≤ 8
      ∧ 5 ≤ blockField testSetup 26 1 ∧ blockField testSetup 26 1 ≤ 13)
      ∧ (blockField testSetup 0 8 % 64 = 0 ∧ blockField testSetup 8 8 % 64
      = 0 ∧ blockField testSetup 16 8 % 64 = 0) ∧ (blockField testSetup 28 4
      ≤ 255 ∧ blockField testSetup 32 4 ≤ 65535 ∧ ∀ i : CapIx, blockField testSetup (36 + 2 * i.val) 2
      ≤ 255))
    ∧ (testState23.inReset = false)
    ∧ (testState23.haltsSettled)
    ∧ (testState23.queuesShaped)
    ∧ (testState23.part = .starting ∧ testState23.setupRead ≠ none ∧ testState23.estop.qualified
      = true ∧ testState23.estopLatch = false ∧ testState23.openList = []
      ∧ testState23.notices < 16)
    ∧ (∀ c, (testState23.chan c).state = .idle ∨ (testState23.chan c).state
      = .held ∨ (testState23.chan c).state = .disabled) :=
  ⟨test_facts_32.2.2.2.2.2.2.2.2.2.2.2.1,
    test_facts_32.2.2.2.2.2.2.2.2.2.2.2.2.1,
    test_facts_34.2.2.2.2.2.1,
    test_facts_18.2.2.2.2.2.2.1,
    test_facts_18.2.2.2.2.2.2.2.1,
    test_facts_34.2.2.2.2.2.2.1,
    test_facts_34.2.2.2.2.2.2.2.1,
    test_facts_34.2.2.2.2.2.2.2.2.1,
    test_facts_34.2.2.2.2.2.2.2.2.2.1,
    test_facts_34.2.2.2.2.2.2.2.2.2.2.1,
    test_facts_34.2.2.2.2.2.2.2.2.2.2.2.1,
    test_facts_34.2.2.2.2.2.2.2.2.2.2.2.2.1,
    test_facts_34.2.2.2.2.2.2.2.2.2.2.2.2.2.1,
    test_facts_34.2.2.2.2.2.2.2.2.2.2.2.2.2.2.1,
    test_facts_34.2.2.2.2.2.2.2.2.2.2.2.2.2.2.2.1,
    test_facts_34.2.2.2.2.2.2.2.2.2.2.2.2.2.2.2.2.1⟩

theorem test_meets_DrainEndsInOff :
    (testState24.inReset = false)
    ∧ (testState24.haltsSettled)
    ∧ (testState24.part = .draining ∧ (∀ c, (testState24.chan c).atRest
      = true ∧ (testState24.chan c).pgn.pulseEnd = none) ∧ testState24.mainRing.credits
      = 0 ∧ testState24.ctrlRing.credits = 0 ∧ testState24.posting = []
      ∧ testState24.writing = none)
    ∧ (testOn.inReset = false)
    ∧ (testOn.haltsSettled)
    ∧ (¬(testOn.part = .draining ∧ (∀ c, (testOn.chan c).atRest = true ∧ (testOn.chan c).pgn.pulseEnd
      = none) ∧ testOn.mainRing.credits = 0 ∧ testOn.ctrlRing.credits = 0
      ∧ testOn.posting = [] ∧ testOn.writing = none)) :=
  ⟨test_facts_34.2.2.2.2.2.2.2.2.2.2.2.2.2.2.2.2.2.1,
    test_facts_34.2.2.2.2.2.2.2.2.2.2.2.2.2.2.2.2.2.2.1,
    test_facts_34.2.2.2.2.2.2.2.2.2.2.2.2.2.2.2.2.2.2.2,
    test_facts_32.2.2.2.2.2.2.2.2.2.2.2.1,
    test_facts_32.2.2.2.2.2.2.2.2.2.2.2.2.1,
    test_facts_35.1⟩

theorem test_meets_RecordsAndRegistersAreLaidOut :
    (testOn.inReset = false)
    ∧ (44 ≤ (44 : BitVec 6).toNat ∧ 44 ≤ (63 : BitVec 6).toNat)
    ∧ ((56 : BitVec 6).toNat < 60 ∧ 60 ≤ (60 : BitVec 6).toNat) :=
  ⟨test_facts_32.2.2.2.2.2.2.2.2.2.2.2.1,
    test_facts_35.2.1,
    test_facts_35.2.2.1⟩

set_option maxRecDepth 4000 in
theorem test_meets_OutputPinsShowTheirLevels :
    ((State.reset).outputsSound)
    ∧ ((State.reset).slotsSound)
    ∧ (State.reset.part = .off)
    ∧ ((testAfter (.enableClear 0) testRunning).outputsSound)
    ∧ ((testAfter (.enableClear 0) testRunning).slotsSound)
    ∧ ((testAfter (.enableClear 0) testRunning).part = .draining ∧ (testAfter (.enableClear 0) testRunning).stepPin 0
      = true)
    ∧ ((testAfter (.rendezvous .main) (testHold .main (testRdv 1 1) testRunning)).outputsSound)
    ∧ ((testAfter (.rendezvous .main) (testHold .main (testRdv 1 1) testRunning)).slotsSound)
    ∧ ((testAfter (.rendezvous .main) (testHold .main (testRdv 1 1) testRunning)).xsyncPinLow = true)
    ∧ (testPinsLow.inReset = false)
    ∧ (testPinsLow.rst.completes (!testPinsLow.rst.level) 1 testPinsLow.now = true)
    ∧ ((Instr.softReset 2).wf = true)
    ∧ (({ testAfter .pinResetAssert testPinsLow with pending := [.intCauseClear 0] }).inReset
      = true ∧ (∀ c : Chan, ({ testAfter .pinResetAssert testPinsLow with pending := [.intCauseClear 0] }).stepPin c
      = false ∧ ({ testAfter .pinResetAssert testPinsLow with pending := [.intCauseClear 0] }).dirPin c
      = false) ∧ ({ testAfter .pinResetAssert testPinsLow with pending := [.intCauseClear 0] }).auxPins
      = (0 : Mask) ∧ ({ testAfter .pinResetAssert testPinsLow with pending := [.intCauseClear 0] }).xsyncPinLow
      = false)
    ∧ (∃ t, step ({ testAfter .pinResetAssert testPinsLow with pending := [.intCauseClear 0] }) = .next t)
    ∧ (({ testAt 283687 testStepNext with pending := [.stepEmission 0] }).stepPin 0
      = false ∧ (testAfter (.stepEmission 0) (testAt 283687 testStepNext)).stepPin 0
      = true)
    ∧ (∃ t, step ({ testAt 283687 testStepNext with pending := [.stepEmission 0] }) = .next t)
    ∧ (({ testAt 200 testRunning with pending := [.pulseEnd 0] }).stepPin 0
      = true ∧ (testAfter (.pulseEnd 0) (testAt 200 testRunning)).stepPin 0
      = false)
    ∧ (∃ t, step ({ testAt 200 testRunning with pending := [.pulseEnd 0] }) = .next t)
    ∧ (testState25.dirPin 0 = true ∧ testSettling.dirPin 0 = false)
    ∧ (∃ t, step testState25 = .next t) :=
  ⟨test_outputs test_facts_35.2.2.2.1,
    test_slots test_facts_35.2.2.2.2.1,
    test_facts_35.2.2.2.2.2.1,
    test_outputs test_facts_35.2.2.2.2.2.2.1,
    test_slots test_facts_35.2.2.2.2.2.2.2.1,
    test_facts_35.2.2.2.2.2.2.2.2.1,
    test_outputs test_facts_35.2.2.2.2.2.2.2.2.2.1,
    test_slots test_facts_35.2.2.2.2.2.2.2.2.2.2.1,
    test_facts_35.2.2.2.2.2.2.2.2.2.2.2.1,
    test_facts_20.2.1,
    test_facts_20.2.2.2.1,
    test_facts_20.1,
    test_facts_35.2.2.2.2.2.2.2.2.2.2.2.2.1,
    test_steps test_facts_35.2.2.2.2.2.2.2.2.2.2.2.2.2.1,
    test_facts_35.2.2.2.2.2.2.2.2.2.2.2.2.2.2.1,
    test_steps test_facts_35.2.2.2.2.2.2.2.2.2.2.2.2.2.2.2.1,
    test_facts_35.2.2.2.2.2.2.2.2.2.2.2.2.2.2.2.2.1,
    test_steps test_facts_35.2.2.2.2.2.2.2.2.2.2.2.2.2.2.2.2.2.1,
    test_facts_35.2.2.2.2.2.2.2.2.2.2.2.2.2.2.2.2.2.2.1,
    test_steps test_facts_35.2.2.2.2.2.2.2.2.2.2.2.2.2.2.2.2.2.2.2⟩

end Sys2Proof.Machine
end

section
/-! Intake's own part of a take: the order of its checks (R120), the completion of a record they refuse (R121), and FENCE and
NOP, which complete at their take (R130, R131). -/

namespace Sys2Proof.Machine

/-! ### The order of intake's own checks (R120) -/

/-- The third check read byte by byte. -/
theorem unusedZero_iff (fields : List (Nat × Nat)) (r : Block) :
    unusedZero fields r = true ↔ ∀ i < 64, inFields fields i = false → blockByte r i = 0 := by
  unfold unusedZero
  rw [List.all_eq_true]
  refine forall_congr' fun i => ?_
  rw [List.mem_range]
  cases inFields fields i <;> simp

/-- A nonzero unused byte fails the third check. -/
theorem unusedZero_eq_false {fields : List (Nat × Nat)} {r : Block} {i : Nat} (hi : i < 64)
    (hunused : inFields fields i = false) (hne : blockByte r i ≠ 0) : unusedZero fields r = false :=
  eq_false_of_ne_true fun h => hne ((unusedZero_iff fields r).mp h i hi hunused)

section
variable {ring : Ring} {r : Block} {k : ReqKind}

theorem intakeRefusal_unknownKind (hk : recReq? r = none) : intakeRefusal ring r = some .badKind := by
  simp only [intakeRefusal, hk]

theorem intakeRefusal_wrongRing (hk : recReq? r = some k) (hc : k.carriedBy ring = false) :
    intakeRefusal ring r = some .wrongRing := by
  simp [intakeRefusal, hk, hc]

theorem intakeRefusal_unusedByte (hk : recReq? r = some k) (hc : k.carriedBy ring = true)
    (hu : unusedZero k.fields r = false) : intakeRefusal ring r = some .badField := by
  simp [intakeRefusal, hk, hc, hu]

theorem intakeRefusal_badChannel (hk : recReq? r = some k) (hc : k.carriedBy ring = true)
    (hu : unusedZero k.fields r = true) (hch : k.queuedByChannel = true ∧ 8 ≤ recChannel r) :
    intakeRefusal ring r = some .badField := by
  simp [intakeRefusal, hk, hc, hu, hch]

theorem intakeRefusal_passes (hk : recReq? r = some k) (hc : k.carriedBy ring = true)
    (hu : unusedZero k.fields r = true) (hch : ¬(k.queuedByChannel = true ∧ 8 ≤ recChannel r)) :
    intakeRefusal ring r = none := by
  simp [intakeRefusal, hk, hc, hu, hch]

end

/-! ### A take that hands over one record -/

@[simp] theorem done_consume (s : State) (ring : Ring) : (consume ring s).done = s.done := by
  cases ring <;> rfl

/-- A take whose whole effect is one record handed over: the record joins the posting queue, the ring gives up its own, and
nothing else changes but the stall cause shown and the interrupt request (R123, R139). -/
def CompletesAtTake (s : State) (ring : Ring) (x : Cpl) (t : State) : Prop :=
  t.posting = s.posting ++ [x]
    ∧ TookFrom s t ring
    ∧ t = { s with
        mainRing := t.mainRing, ctrlRing := t.ctrlRing, posting := t.posting, stall := t.stall, irq := t.irq,
        messages := t.messages }

/-- Posting a record after the take's own part completes at the take, whatever the end of the command then shows. -/
theorem completesAtTake_post (s : State) (ring : Ring) (x : Cpl) (stall : StallCause) (irq : Bool) (messages : Nat) :
    CompletesAtTake s ring x { (consume ring s).post x with stall := stall, irq := irq, messages := messages } := by
  have htook := consume_tookFrom s ring
  cases ring <;> exact ⟨rfl, htook, rfl⟩

/-- Handing over a record moves no channel, so the pending HALTs stay settled. -/
theorem haltsSettled_consume_post {s : State} (h : s.haltsSettled) (ring : Ring) (x : Cpl) :
    ((consume ring s).post x).haltsSettled :=
  haltsSettled_of (haltsSettled_consume h ring) rfl fun _ hc => hc

/-- A command outside the pin reset that takes a record and posts its completion. -/
theorem answers_completesAtTake {s : State} {ring : Ring} {x : Cpl} {f : State → State} (hawake : s.inReset = false)
    (hhalts : s.haltsSettled) (hf : f s = (consume ring s).post x) :
    Answers (outcome s f) (CompletesAtTake s ring x) := by
  refine answers_settled hawake f _ ?_ fun stall irq messages => ?_
  · rw [hf]
    exact haltsSettled_consume_post hhalts ring x
  · rw [hf]
    exact completesAtTake_post s ring x stall irq messages

/-! ### A record that intake refuses (R121) -/

/-- The command that takes a record of a kind is that kind's take, with its owner's part. -/
theorem exec_takeCommand (ring : Ring) (kind : Option ReqKind) :
    ∃ accept, ∀ s, exec (takeCommand ring kind) s = outcome s (takeKind kind ring accept) := by
  cases kind with
  | none => exact ⟨_, fun _ => rfl⟩
  | some k => cases k <;> exact ⟨_, fun _ => rfl⟩

/-- A refused record is consumed and completed, and its owner is not asked. -/
theorem takeKind_refused {s : State} {ring : Ring} {r : Block} {status : Status} (htake : takeable s ring = some r)
    (hrefused : intakeRefusal ring r = some status) (accept : Block → Nat → State → State) :
    takeKind (recReq? r) ring accept s = (consume ring s).post (intakeDone s ring (s.ring ring).fetch r status) := by
  simp [takeKind, htake, hrefused, intakeDone]

/-- Settles O14: the order of R120 check by check, and R121 from what every take that posts one record does. -/
theorem intakeRefusesInOrder : Obligations.IntakeRefusesInOrder := by
  refine ⟨fun ring r => ⟨intakeRefusal_unknownKind, fun k hk => ⟨intakeRefusal_wrongRing hk, fun hc => ⟨?_, fun hzero => ?_⟩⟩⟩,
    fun s ring r status hawake htake hrefused hhalts => ?_⟩
  · rintro ⟨i, hi, hunused, hne⟩
    exact intakeRefusal_unusedByte hk hc (unusedZero_eq_false hi hunused hne)
  · have hu := (unusedZero_iff k.fields r).mpr hzero
    exact ⟨intakeRefusal_badChannel hk hc hu, intakeRefusal_passes hk hc hu⟩
  · obtain ⟨accept, hexec⟩ := exec_takeCommand ring (recReq? r)
    rw [hexec]
    exact answers_completesAtTake hawake hhalts (takeKind_refused htake hrefused accept)

/-! ### FENCE and NOP (R130, R131) -/

/-- A main record that the arbiter takes was judged to lack nothing (R127). -/
theorem mainStall_of_takeable {s : State} {r : Block} (h : takeable s .main = some r) : mainStall s r = none := by
  unfold takeable at h
  simp only at h
  split at h
  · split at h
    · rw [Option.ite_none_right_eq_some] at h
      obtain ⟨hstall, hr⟩ := h
      cases hr
      exact Option.isNone_iff_eq_none.mp hstall
    · cases h
  · cases h

/-- A taken FENCE finds no main-ring credit held: its judgment would else have shown the stall cause FENCE (R127, R130). -/
theorem credits_of_takenFence {s : State} {r : Block} (h : Taken s .main .fence r) : s.mainRing.credits = 0 := by
  have hstall := mainStall_of_takeable h.takes
  cases hcredit : creditFor s .main with
  | false => simp [mainStall, hcredit] at hstall
  | true => simpa [mainStall, hcredit, h.passes, h.kind, ownerRefusal, resourceStall] using hstall

/-- The completion OK of a taken request names its kind by the kind's code. -/
theorem okDone_taken {s : State} {ring : Ring} {k : ReqKind} {r : Block} (h : Taken s ring k r) (auxA auxB : Word) :
    okDone (consume ring s) ring r auxA auxB = s.done ring k.code (recTag r) .ok .clear 0 0 auxA auxB := by
  rw [okDone, done_consume, recKind_of_recReq h.kind]

/-- A taken request whose owner does nothing but complete it OK, with no channel. -/
theorem answers_okAtTake {s : State} {ring : Ring} {k : ReqKind} {r : Block} (h : Taken s ring k r)
    (hhalts : s.haltsSettled) {accept : Block → Nat → State → State} {auxA auxB : Word}
    (ha : accept r (s.ring ring).fetch (consume ring s)
      = (consume ring s).post (okDone (consume ring s) ring r auxA auxB)) :
    Answers (outcome s (takeKind (some k) ring accept))
      (CompletesAtTake s ring (s.done ring k.code (recTag r) .ok .clear 0 0 auxA auxB)) :=
  answers_completesAtTake h.awake hhalts (by rw [takeKind_taken h, ha, okDone_taken h])

/-- A NOP without a credit is not taken: at most the stall cause shown and the interrupt request change (R123, R127). -/
theorem answers_nop_noCredit {s : State} {ring : Ring} (hcredit : creditFor s ring = false) (hhalts : s.haltsSettled) :
    Answers (exec (.nop ring) s) fun t => t = { s with stall := t.stall, irq := t.irq, messages := t.messages } := by
  have hstays (accept) := takeKind_none (takeable_of_noCredit hcredit) (some .nop) accept
  cases hr : s.inReset with
  | true => exact ⟨s, by simp [exec, execNop, outcome, hr], rfl⟩
  | false =>
    refine answers_settled hr _ _ ?_ fun stall irq messages => ?_
    · rwa [hstays]
    · rw [hstays]

/-- Settles O17: FENCE and NOP are takes whose owner only completes them, and without a credit there is no take. -/
theorem fenceAndNopCompleteAtOnce : Obligations.FenceAndNopCompleteAtOnce :=
  ⟨fun _ _ htaken hhalts => ⟨credits_of_takenFence htaken, answers_okAtTake htaken hhalts rfl⟩,
    fun _ _ _ htaken hhalts => answers_okAtTake htaken hhalts rfl,
    fun _ _ hcredit hhalts => answers_nop_noCredit hcredit hhalts⟩

end Sys2Proof.Machine
end

section
/-! CLEAR_ESTOP (R166): the owner's part by the level of the ESTOP input, and what the take answers. -/

namespace Sys2Proof.Machine

/-- A bit as an aux value, as R166 and R180 write it: 1 for set, 0 for clear. -/
theorem auxNat_bitNat (b : Bool) : auxNat (bitNat b) = if b then 1 else 0 := by
  cases b <;> rfl

/-- An answer that meets a condition meets each weaker one. -/
theorem Answers.imp {o : Host.Outcome State Fault Refusal} {p q : State → Prop} (h : Answers o p)
    (hpq : ∀ t, p t → q t) : Answers o q := by
  obtain ⟨t, hnext, hp⟩ := h
  exact ⟨t, hnext, hpq t hp⟩

/-- The completion of a CLEAR_ESTOP taken in a state (R166): aux A is the latch as it stands there. -/
def clearEstopDone (s : State) (r : Block) (status : Status) : Cpl :=
  s.done .ctrl ReqKind.clearEstop.code (recTag r) status .clear 0 0 (if s.estopLatch then 1 else 0) 0

/-- With the input asserted the owner only completes the request (R166). -/
theorem admitClearEstop_asserted {s : State} (h : s.estop.qualified = true) (r : Block) :
    admitClearEstop r (consume .ctrl s) = (consume .ctrl s).post (clearEstopDone s r .inputActive) := by
  have hin : (consume .ctrl s).estop.qualified = true := h
  simp only [admitClearEstop, hin, if_true, auxNat_bitNat]
  rfl

/-- With the input negated the owner clears the latch and completes the request with the latch from before (R166). The take
and the clearing touch different fields, so the state is that of a take with the latch already clear. -/
theorem admitClearEstop_negated {s : State} (h : s.estop.qualified = false) (r : Block) :
    admitClearEstop r (consume .ctrl s)
      = (consume .ctrl { s with estopLatch := false }).post (clearEstopDone s r .ok) := by
  have hin : (consume .ctrl s).estop.qualified = false := h
  simp only [admitClearEstop, hin, Bool.false_eq_true, if_false, auxNat_bitNat]
  rfl

/-- A CLEAR_ESTOP taken with the input asserted completes INPUT_ACTIVE at its take, and does nothing else (R166). -/
theorem answers_clearEstop_asserted {s : State} {r : Block} (htaken : Taken s .ctrl .clearEstop r)
    (hhalts : s.haltsSettled) (hin : s.estop.qualified = true) :
    Answers (exec (.clearEstop .ctrl) s) (CompletesAtTake s .ctrl (clearEstopDone s r .inputActive)) :=
  answers_completesAtTake htaken.awake hhalts (by rw [takeKind_taken htaken, admitClearEstop_asserted hin])

/-- A CLEAR_ESTOP taken with the input negated completes OK, as at a take from the state with the latch clear (R166). -/
theorem answers_clearEstop_negated {s : State} {r : Block} (htaken : Taken s .ctrl .clearEstop r)
    (hhalts : s.haltsSettled) (hin : s.estop.qualified = false) :
    Answers (exec (.clearEstop .ctrl) s)
      (CompletesAtTake { s with estopLatch := false } .ctrl (clearEstopDone s r .ok)) := by
  have howner := admitClearEstop_negated hin r
  refine answers_take htaken _ _ ?_ fun stall irq messages => ?_
  · rw [howner]
    exact haltsSettled_consume_post (s := { s with estopLatch := false }) hhalts .ctrl _
  · rw [howner]
    exact completesAtTake_post _ .ctrl _ stall irq messages

/-- Settles O37: with the input asserted the take only completes the request, and with it negated it is a take from the state
with the latch clear, whose frame gives the cleared latch. -/
theorem clearEstopFollowsTheInput : Obligations.ClearEstopFollowsTheInput := by
  intro s r htaken hhalts
  refine ⟨fun hin => ?asserted, fun hin => ?negated⟩
  case asserted =>
    refine (answers_clearEstop_asserted htaken hhalts hin).imp fun t hcompletes => ?_
    obtain ⟨hposting, htook, hframe⟩ := hcompletes
    exact ⟨⟨hposting, htook⟩, hframe⟩
  case negated =>
    refine (answers_clearEstop_negated htaken hhalts hin).imp fun t hcompletes => ?_
    obtain ⟨hposting, htook, hframe⟩ := hcompletes
    have hlatch : t.estopLatch = false := congrArg State.estopLatch hframe
    exact ⟨hlatch, ⟨hposting, htook⟩, by rw [hlatch]; exact hframe⟩

end Sys2Proof.Machine
end

section
/-! What one command does and what follows it: each command but the release of the pin reset is `outcome` of one effect on the
state, every command ends in the same `finish`, and a condition is kept by a step once each effect keeps it. -/

namespace Sys2Proof.Machine

/-! ### The pending-halt list at the end of a command (R60) -/

/-- One pending HALT looked at appends to the list or to the posting queue, and depends on channels and clock alone. -/
theorem sweepHalts_eq (s : State) :
    sweepHalts s = { s with halts := haltsLeft s s, posting := s.posting ++ haltsDone s s } := by
  have gen : ∀ (l : List PendingHalt) (u : State), u.chans = s.chans → u.clock = s.clock →
      l.foldl sweepHalt u = { u with
        halts := u.halts ++ (l.filter fun h => stillMoving s h.waiting != 0).map
          fun h => { h with waiting := stillMoving s h.waiting }
        posting := u.posting ++ (l.filter fun h => stillMoving s h.waiting == 0).map (haltDone s) } := by
    intro l
    induction l with
    | nil => intro u _ _; simp
    | cons h rest ih =>
      intro u hu hk
      have hm : stillMoving u h.waiting = stillMoving s h.waiting :=
        stillMoving_congr (fun c => by simp [State.chan, hu]) _
      rw [List.foldl_cons]
      by_cases hw : stillMoving s h.waiting = 0
      · have hd : haltDone u h = haltDone s h := by simp [haltDone, State.done, hk]
        have hs : sweepHalt u h = u.post (haltDone s h) := by simp [sweepHalt, hm, hw, hd]
        rw [hs, ih (u.post (haltDone s h)) hu hk]
        simp [hw]
      · have hs : sweepHalt u h = { u with halts := u.halts ++ [{ h with waiting := stillMoving s h.waiting }] } := by
          simp only [sweepHalt, hm, if_neg hw]
        rw [hs, ih { u with halts := u.halts ++ [{ h with waiting := stillMoving s h.waiting }] } hu hk]
        simp [show ¬stillMoving s h.waiting = 0#8 from hw]
  have h := gen s.halts { s with halts := [] } rfl rfl
  rw [List.nil_append] at h
  exact h

/-- The end of a command: HALTs that wait for no channel complete, the stall cause is judged again, and the interrupt request
follows its causes (R60, R128, R147). -/
theorem finish_eq (s : State) :
    finish s = { s with
      halts := haltsLeft s s, posting := s.posting ++ haltsDone s s, stall := (finish s).stall, irq := (finish s).irq,
      messages := (finish s).messages } := by
  have h : ∀ u : State, rejudge u = { u with stall := (rejudge u).stall } := by
    intro u
    unfold rejudge
    split
    · rfl
    · split
      · rfl
      · split <;> rfl
  unfold finish
  have hs := h (sweepHalts s)
  rw [hs, sweepHalts_eq]
  rfl

/-- After a command the interrupt request is asserted exactly while a cause is set and INT_ENABLE is 1 (R147). -/
theorem irq_finish (s : State) : (finish s).irq = (s.intCause != 0 && s.intEnable) := by
  have h := finish_eq s
  have hc : (finish s).intCause = s.intCause := by rw [h]
  have he : (finish s).intEnable = s.intEnable := by rw [h]
  rw [← hc, ← he]
  rfl

/-- A message is sent as the request becomes asserted, where messages are enabled (R147). -/
theorem messages_finish (s : State) :
    (finish s).messages = s.messages + if (finish s).irq = true ∧ s.irq = false ∧ s.msiEnabled = true then 1 else 0 := by
  have h : ∀ u : State, (rejudge u).irq = u.irq ∧ (rejudge u).messages = u.messages ∧ (rejudge u).msiEnabled = u.msiEnabled := by
    intro u
    unfold rejudge
    split
    · exact ⟨rfl, rfl, rfl⟩
    · split
      · exact ⟨rfl, rfl, rfl⟩
      · split <;> exact ⟨rfl, rfl, rfl⟩
  have hr : ∀ u : State, (refreshIrq u).messages
      = u.messages + if (refreshIrq u).irq = true ∧ u.irq = false ∧ u.msiEnabled = true then 1 else 0 := by
    intro u
    simp only [refreshIrq, Bool.and_eq_true, Bool.not_eq_true', and_assoc]
    split <;> rfl
  obtain ⟨hirq, hmsg, hmsi⟩ := h (sweepHalts s)
  unfold finish
  rw [hr, hirq, hmsg, hmsi, sweepHalts_eq]

/-- What a command outside the pin reset answers: its effect, with the pending HALTs looked at, and some stall cause and
interrupt request. -/
theorem answers_effect {s : State} (h : s.inReset = false) {f : State → State} {p : State → Prop}
    (hp : ∀ stall irq messages, p { f s with
      halts := haltsLeft (f s) (f s), posting := (f s).posting ++ haltsDone (f s) (f s), stall := stall, irq := irq,
      messages := messages }) :
    Answers (outcome s f) p := by
  refine ⟨_, outcome_awake h f, ?_⟩
  rw [finish_eq]
  exact hp _ _ _

/-- A command whose effect is none on this state changes at most the stall cause shown and the interrupt request. -/
theorem answers_nothing {s : State} {f : State → State} (h : s.inReset = false) (hs : s.haltsSettled) (hf : f s = s) :
    Answers (outcome s f) fun t => t = { s with stall := t.stall, irq := t.irq, messages := t.messages } := by
  refine answers_settled h f _ ?_ fun stall irq messages => ?_
  · rwa [hf]
  · rw [hf]

/-! ### The effect of each command -/

/-- The owner's part of the take of a record of a kind. -/
def ownerPart (ring : Ring) : Option ReqKind → Block → Nat → State → State
  | none => fun _ _ s => s
  | some .move => fun r _ => admitEntry .move r
  | some .dwell => fun r _ => admitEntry .dwell r
  | some .setPosition => fun r _ => admitEntry .setPosition r
  | some .mark => fun r _ => admitEntry .mark r
  | some .rendezvous => fun r _ => admitRendezvous r
  | some .setProfile => fun r _ => admitSetProfile r
  | some .fence => fun r _ s => s.post (okDone s .main r 0 0)
  | some .nop => fun r slot s => s.post (okDone s ring r (auxNat slot) (auxNat (ringCode ring)))
  | some .halt => fun r _ => admitHalt r
  | some .resume => fun r _ => admitResume r
  | some .overrideRate => fun r _ => admitOverrideRate r
  | some .cancelRendezvous => fun r _ => admitCancelRendezvous r
  | some .setWatch => fun r _ => admitSetWatch r
  | some .clearWatch => fun r _ => admitClearWatch r
  | some .setChannel => fun r _ => admitSetChannel r
  | some .query => fun r _ => admitQuery r
  | some .clearEstop => fun r _ => admitClearEstop r

/-- The take of a record of a kind, on the state. -/
def takeRecord (kind : Option ReqKind) (ring : Ring) : State → State := takeKind kind ring (ownerPart ring kind)

/-- What each command does to the state, before the end of every command; the release of the pin reset has a meaning of its
own. -/
def effect : Instr → State → State
  | .move ring => takeRecord (some .move) ring
  | .dwell ring => takeRecord (some .dwell) ring
  | .setPosition ring => takeRecord (some .setPosition) ring
  | .mark ring => takeRecord (some .mark) ring
  | .rendezvous ring => takeRecord (some .rendezvous) ring
  | .setProfile ring => takeRecord (some .setProfile) ring
  | .fence ring => takeRecord (some .fence) ring
  | .nop ring => takeRecord (some .nop) ring
  | .halt ring => takeRecord (some .halt) ring
  | .resume ring => takeRecord (some .resume) ring
  | .overrideRate ring => takeRecord (some .overrideRate) ring
  | .cancelRendezvous ring => takeRecord (some .cancelRendezvous) ring
  | .setWatch ring => takeRecord (some .setWatch) ring
  | .clearWatch ring => takeRecord (some .clearWatch) ring
  | .setChannel ring => takeRecord (some .setChannel) ring
  | .query ring => takeRecord (some .query) ring
  | .clearEstop ring => takeRecord (some .clearEstop) ring
  | .badKindRecord ring => takeRecord none ring
  | .enableSet v | .enableClear v | .softReset v | .intEnable v => writeWindow 0 15 v
  | .indexErrorClear v => writeWindow 4 15 v
  | .setupLo v => writeWindow 8 15 v
  | .setupHi v => writeWindow 12 15 v
  | .mainPost v => writeWindow 16 15 v
  | .ctrlPost v => writeWindow 24 15 v
  | .cplRetire v => writeWindow 36 15 v
  | .intCauseClear v => writeWindow 40 15 v
  | .ignoredRegisterWrite offset enables v => writeWindow offset enables v
  | .pinResetAssert => fun s => if s.rstCompletes then changeReset s else s
  | .pinResetRelease => id
  | .conventionalReset | .functionLevelReset => resetPart
  | .estopAssertion => fun s => if s.estopCompletes && !s.estop.qualified then takeAssertion (changeEstop s) else s
  | .estopNegation => fun s => if s.estopCompletes && s.estop.qualified then changeEstop s else s
  | .limitQualifiedChange c input active => fun s =>
    if (s.chan c).limitCompletes input s.now && ((s.chan c).limit input).qualified != active
    then takeLimitChange c input active s else s
  | .qualifiedEdge input rise => fun s =>
    if s.captureCompletes input && (s.caps[input]).qualified != rise then takeQualifiedEdge input rise s else s
  | .xsyncQualified => fun s => atDue (xsyncDone s.xsyncRun) takeXsync s
  | .stepEmission c => fun s => atDue (dueStep (s.chan c)) (takeStepDue c) s
  | .settleEnd c => fun s => atDue (dueSettle (s.chan c)) (takeSettleEnd c) s
  | .pulseEnd c => fun s => atDue (duePulse (s.chan c)) (takePulseEnd c) s
  | .segmentEnd c => fun s => atDue (dueSegmentEnd (s.chan c)) (takeSegmentEnd c) s
  | .stopRest c => fun s => atDue (dueStopRest (s.chan c)) (stopAtRest c) s
  | .dwellExpiry c => fun s => atDue (dueDwell (s.chan c)) (takeDwellExpiry c) s
  | .rendezvousExpiry i => fun s => atDue (dueExpiry s.slots[i]) (fun s => (failSlot i .expired none s).settle) s
  | .coalescingDelayExpiry => fun s => atDue (dueCoalescing s) announce s
  | .fetchDone ring read data => endFetch ring read data
  | .fetchFault ring read => failFetch ring read
  | .completionWriteDone write => endWrite write
  | .completionWriteFault write => failWrite write
  | .setupReadDone read block => endSetupRead read block
  | .setupReadFail read => failSetupRead read
  | .fetchBegin ring => beginFetch ring
  | .completionWriteBegin => beginWrite
  | .drainComplete => completeDrain

/-- Each command but the release of the pin reset is its effect, outside the pin reset, and the end of every command. -/
theorem exec_eq_outcome {i : Instr} (h : i ≠ .pinResetRelease) (s : State) : exec i s = outcome s (effect i) := by
  cases i
  case pinResetRelease => exact absurd rfl h
  all_goals rfl

/-- What a command answers, whatever it is: the state as it was, its effect outside the pin reset, or the end of that reset. -/
theorem exec_cases (i : Instr) (s : State) :
    exec i s = .next s ∨ (s.inReset = false ∧ exec i s = .next (finish (effect i s)))
      ∨ (s.inReset = true ∧ s.rstCompletes = true ∧ exec i s = .next (finish (changeReset s))) := by
  by_cases hi : i = .pinResetRelease
  · subst hi
    show execPinResetRelease s = _ ∨ _ ∨ _ ∧ _ ∧ execPinResetRelease s = _
    unfold execPinResetRelease
    cases hr : s.inReset <;> cases hc : s.rstCompletes <;> simp
  · rw [exec_eq_outcome hi]
    unfold outcome
    cases hr : s.inReset <;> simp

/-- What an empty queue's step leaves: a cycle sampled, or commands put in the queue and choices counted. -/
theorem idle_cases (s : State) :
    idle s = tickWith (Config.inputs s.now) s ∨ ∃ pending choices, idle s = { s with pending := pending, choices := choices } := by
  unfold idle
  split
  · exact .inl rfl
  · exact .inr ⟨_, _, rfl⟩
  · exact .inr ⟨_, _, rfl⟩

/-- A condition that holds after a step: it holds after a cycle, after each effect and after the end of a reset, and neither the
queue of commands nor the count of choices bears on it. -/
theorem step_meets {pre post : State → Prop} (queued : ∀ s pending choices, pre s →
      pre { s with pending := pending, choices := choices })
    (stays : ∀ s, pre s → post s) (ticks : ∀ p s, pre s → post (tickWith p s))
    (acts : ∀ i s, s.inReset = false → pre s → post (finish (effect i s)))
    (resets : ∀ s, pre s → post (finish (changeReset s))) {s t : State} (hs : pre s) (hst : step s = .next t) : post t := by
  unfold step at hst
  split at hst
  · cases hst
    obtain h | ⟨pending, choices, h⟩ := idle_cases s
    · rw [h]; exact ticks _ _ hs
    · rw [h]; exact stays _ (queued _ _ _ hs)
  · rename_i c rest _
    have hq := queued s rest s.choices hs
    obtain h | ⟨hr, h⟩ | ⟨_, _, h⟩ := exec_cases c { s with pending := rest } <;> rw [h] at hst <;> cases hst
    · exact stays _ hq
    · exact acts _ _ hr hq
    · exact resets _ hq

/-- Settles O1: a step on a queue that is not empty is the command at its front. -/
theorem stepRunsFrontCommand : Obligations.StepRunsFrontCommand := fun _ _ _ => rfl

end Sys2Proof.Machine
end

section
/-! What the commands come to: one list of the changes that the effect of a command can make, each with what the command has found
before it makes it. A condition on the state is kept by every command once each change of the list keeps it. -/

namespace Sys2Proof.Machine

/-! ### What a take has found -/

/-- A take is made in RUNNING alone (R123). -/
theorem running_of_takeable {s : State} {ring : Ring} {r : Block} (h : takeable s ring = some r) : s.part = .running := by
  cases ring with
  | main =>
    unfold takeable at h
    simp only at h
    split at h
    · rename_i hp; exact hp.1
    · cases h
  | ctrl =>
    unfold takeable ctrlTakeable at h
    simp only at h
    split at h
    · rename_i hp; exact hp.1
    · cases h

@[simp] theorem part_consume (s : State) (ring : Ring) : (consume ring s).part = s.part := by cases ring <;> rfl

/-- A record that passes intake's own checks came from a ring that carries its kind (R120). -/
theorem carriedBy_of_passes {ring : Ring} {r : Block} {k : ReqKind} (hk : recReq? r = some k)
    (h : intakeRefusal ring r = none) : k.carriedBy ring = true := by
  cases hc : k.carriedBy ring with
  | true => rfl
  | false => rw [intakeRefusal_wrongRing hk hc] at h; cases h

/-- A take of the main ring whose owner does not refuse it was judged to lack no resource (R127). -/
theorem resourceStall_of_taken {s : State} {r : Block} {k : ReqKind} (ht : takeable s .main = some r)
    (hk : recReq? r = some k) (hp : intakeRefusal .main r = none) (ho : ownerRefusal k s r = none) :
    resourceStall k s r = none := by
  have h := mainStall_of_takeable ht
  cases hc : creditFor s .main with
  | false => simp [mainStall, hc] at h
  | true => simpa [mainStall, hc, hp, hk, ho] using h

/-! ### Changes of the registers and of the rings' buffers -/

/-- A change of registers, interrupt causes and the rings' buffers and indices alone: no credit, no channel and no part state. -/
def RegisterChange (s t : State) : Prop :=
  t = { s with
    setupLo := t.setupLo, setupHi := t.setupHi, indexError := t.indexError, cplRetire := t.cplRetire,
    intCause := t.intCause, intEnable := t.intEnable, writing := t.writing, unannounced := t.unannounced,
    oldest := t.oldest, mainRing := { t.mainRing with credits := s.mainRing.credits },
    ctrlRing := { t.ctrlRing with credits := s.ctrlRing.credits } }

theorem registerChange_setRing {s : State} {ring : Ring} {r : RequestRing} (h : r.credits = (s.ring ring).credits) :
    RegisterChange s (s.setRing ring r) := by
  unfold RegisterChange
  cases ring
  · rw [← show r.credits = s.mainRing.credits from h]; rfl
  · rw [← show r.credits = s.ctrlRing.credits from h]; rfl

/-! ### The list of changes -/

/-- The queue of channel c can take one more entry: open, and not full (R5, R6). -/
def Channel.takesEntry (ch : Channel) : Prop := ch.isOpen = true ∧ ch.queue.length < Config.queueDepth

/-- The changes that the effects of the commands come to, each from a state that meets `pre` to one that meets `post`. Those
of a take start from the state with the record already consumed. -/
structure EffectsMeet (pre post : State → Prop) : Prop where
  stays : ∀ s, pre s → post s
  -- takes (R123)
  consumes : ∀ s ring r, pre s → takeable s ring = some r → pre (consume ring s)
  completes : ∀ s x, pre s → s.part = .running → x.notice = false → post (s.post x)
  admits : ∀ s c e, pre s → s.part = .running → (s.chan c).takesEntry → post (appendEntry c e s).settle
  opens : ∀ s r i, pre s → s.part = .running → s.slots[i] = none → recMask r 8 ≠ 0 →
    (∀ c, hasChan (recMask r 8) c = true → (s.chan c).takesEntry) → (blockByte r 9 = 1 → externalOpen s = false) →
    post (eachAct (chansOf (recMask r 8)) (fun c => appendEntry c (.marker i)) (openSlot i (openedSlot r) s)).settle
  defines : ∀ s i p x, pre s → s.part = .running → p.valid = true → x.notice = false →
    post ((s.setProfile i (some p)).post x)
  halts : ∀ s r mode, pre s → s.part = .running → haltMode? (blockByte r 9) = some mode → post (admitHalt r s)
  resumes : ∀ s r, pre s → s.part = .running → s.estopLatch = false → post (admitResume r s)
  overrides : ∀ s c m vc x, pre s → s.part = .running → (s.chan c).state = .running → (s.chan c).headMove? = some m →
    x.notice = false → post ((s.setChan c (overrideHead (s.chan c) m vc)).post x)
  cancels : ∀ s i x, pre s → s.part = .running → x.notice = false → post ((failSlot i .cancelled none s).settle.post x)
  watches : ∀ s i w x, pre s → s.part = .running → x.notice = false → post ((s.setWatch i w).post x)
  configures : ∀ s c cfg x, pre s → s.part = .running → configurable (s.chan c) = true → cfg.valid = true →
    x.notice = false → post ((s.setChan c (configure (s.chan c) cfg s.estopLatch)).post x)
  clears : ∀ s x, pre s → s.part = .running → x.notice = false → post ({ s with estopLatch := false }.post x)
  -- register writes and resets
  registers : ∀ s t, pre s → RegisterChange s t → post t
  enables : ∀ s b, pre s → pre { s with intEnable := b }
  starts : ∀ s, pre s → s.part = .off → post (enterStarting s)
  abandons : ∀ s, pre s → s.part = .starting → post { s with part := .off, setupRead := none }
  drains : ∀ s, pre s → s.part = .running → post (enterDraining s)
  softResets : ∀ s, pre s → post (softResetPart s)
  resets : ∀ s, pre s → post (resetPart s)
  pinResets : ∀ s, pre s → post (changeReset s)
  -- pins
  estopFollows : ∀ s, pre s → pre (changeEstop s)
  asserts : ∀ s, pre s → post (takeAssertion s)
  limitChanges : ∀ s c input active, pre s → post (takeLimitChange c input active s)
  edges : ∀ s input rise, pre s → post (takeQualifiedEdge input rise s)
  releases : ∀ s i, pre s → post (releaseSlot i s).settle
  -- a channel's own timing, and the other timers
  steps : ∀ s c rateSq, pre s → (s.chan c).state = .running ∨ (s.chan c).state = .stopping →
    post (emitStep c rateSq s).settle
  settles : ∀ s c entrySq, pre s → (s.chan c).state = .running →
    post (firstStep c entrySq (s.modChan c fun ch => { ch with pgn := { ch.pgn with settleEnd := none } })).settle
  falls : ∀ s c e, pre s → (s.chan c).pgn.pulseEnd = some e → e ≤ s.now → post (takePulseEnd c s)
  segments : ∀ s c m, pre s → (s.chan c).state = .running → (s.chan c).headMove? = some m →
    post (endSegment c m (limitsAtRest c s)).settle
  rests : ∀ s c, pre s → (s.chan c).state = .stopping → post (stopAtRest c s)
  dwells : ∀ s c tag duration rest, pre s → (s.chan c).state = .dwelling → (s.chan c).queue = .dwell tag duration :: rest →
    post (takeDwellExpiry c s)
  expires : ∀ s i, pre s → post (failSlot i .expired none s).settle
  -- DMA operations
  fetchFails : ∀ s ring r x, pre s → r.credits = (s.ring ring).credits → x.notice = true →
    post ((s.setRing ring r).postNotice x)
  written : ∀ s r rest, pre s → s.posting = r :: rest → post (recordWritten r rest s)
  fails : ∀ s, pre s → s.part.writes = true → post (enterFailed ({ s with writing := none }.raise causeFault))
  setupEnds : ∀ s code, pre s → s.part = .starting → post (setupFails code s)
  serves : ∀ s b, pre s → s.part = .starting → post (enterRunning b s)
  leaves : ∀ s, pre s → drained s = true → post { s with part := .off }
  announces : ∀ s, pre s → drained s = true → post (announce { s with part := .off })

namespace EffectsMeet

variable {pre post : State → Prop} (h : EffectsMeet pre post) {s : State}
include h

/-- A request refused by its owner, or completed with a record made there. -/
theorem refuses (ring : Ring) (r : Block) (x : Declined) (hs : pre s) (hp : s.part = .running) :
    post (refuse ring r x s) := by
  refine h.completes s _ hs hp ?_
  unfold refusalDone
  split <;> rfl

/-- A take meets the condition once its owner's part does (R121, R123). -/
theorem takeKind {kind : Option ReqKind} {ring : Ring} {accept : Block → Nat → State → State} (hs : pre s)
    (ha : ∀ r k, kind = some k → takeable s ring = some r → recReq? r = some k → intakeRefusal ring r = none →
      pre (consume ring s) → (consume ring s).part = .running → post (accept r (s.ring ring).fetch (consume ring s))) :
    post (Machine.takeKind kind ring accept s) := by
  unfold Machine.takeKind
  split
  · exact h.stays _ hs
  · rename_i r ht
    have hc := h.consumes s ring r hs ht
    have hp : (consume ring s).part = .running := (part_consume s ring).trans (running_of_takeable ht)
    split
    · rename_i hk
      simp only
      split
      · exact h.completes _ _ hc hp rfl
      · rename_i hi
        cases kind with
        | none => rw [intakeRefusal_unknownKind hk] at hi; cases hi
        | some k => exact ha r k rfl ht hk hi hc hp
    · exact h.stays _ hs

/-- MOVE, DWELL, SET_POSITION and MARK (R5 to R8). -/
theorem takesEntry {k : ReqKind} {ring : Ring} (hk : k ∈ [ReqKind.move, .dwell, .setPosition, .mark]) (hs : pre s) :
    post (Machine.takeKind (some k) ring (fun r _ => admitEntry k r) s) := by
  refine h.takeKind hs fun r k' e ht hr hi hc hp => ?_
  cases e
  have hring : ring = .main := by
    have hcarried := carriedBy_of_passes hr hi
    cases ring with
    | main => rfl
    | ctrl =>
      simp at hk
      rcases hk with rfl | rfl | rfl | rfl <;> cases hcarried
  subst hring
  unfold admitEntry
  split
  · exact h.refuses _ _ _ hc hp
  · rename_i e he
    split
    · exact h.refuses _ _ _ hc hp
    · rename_i hopen
      refine h.admits _ _ _ hc hp ?_
      have hchan : (consume .main s).chan (recChan r) = s.chan (recChan r) := chan_consume _ _ _
      have hrec : recEntry? k s r = some e := he
      have hclosed : closedRefusal s (recChan r) = none := hopen
      have hisOpen : (s.chan (recChan r)).isOpen = true := by
        by_contra hn
        simp [closedRefusal, hn] at hclosed
      have ho : ownerRefusal k s r = none := by
        simp at hk
        rcases hk with rfl | rfl | rfl | rfl <;> simp [ownerRefusal, hrec, hclosed]
      have hq := resourceStall_of_taken ht hr hi ho
      rw [Channel.takesEntry, hchan]
      refine ⟨hisOpen, ?_⟩
      simp at hk
      rcases hk with rfl | rfl | rfl | rfl <;> simpa [resourceStall, queueFull] using hq

/-- RENDEZVOUS (R74 to R77). -/
theorem takesRendezvous {ring : Ring} (hs : pre s) :
    post (Machine.takeKind (some .rendezvous) ring (fun r _ => admitRendezvous r) s) := by
  refine h.takeKind hs fun r k' e ht hr hi hc hp => ?_
  cases e
  have hring : ring = .main := by
    have := carriedBy_of_passes hr hi
    cases ring <;> [rfl; cases this]
  subst hring
  unfold admitRendezvous
  split
  · exact h.refuses _ _ _ hc hp
  · rename_i ho
    split
    · exact h.stays _ hc
    · rename_i i hfree
      have ho' : ownerRefusal .rendezvous s r = none := ho
      have hq := resourceStall_of_taken ht hr hi ho'
      simp only [resourceStall] at hq
      split at hq
      · cases hq
      · rename_i hfull
        split at hq
        · cases hq
        · split at hq
          · cases hq
          · rename_i hext
            simp only [ownerRefusal] at ho'
            split at ho'
            · cases ho'
            · rename_i hfields
              have hmask : recMask r 8 ≠ 0 := by
                simp only [rendezvousFieldsOk] at hfields
                simp at hfields
                exact hfields.1.1
              refine h.opens _ _ _ hc hp ?_ hmask (fun c hm => ?_) (fun hb => ?_)
              · have := List.find?_some hfree
                simpa using this
              · rw [Channel.takesEntry, chan_consume]
                refine ⟨?_, ?_⟩
                · simp only [rendezvousClosed] at ho'
                  split at ho'
                  · rename_i hz
                    have := maskOf_eq_zero.mp hz c
                    simpa [hm] using this
                  · cases ho'
                · have := List.any_eq_false.mp (by simpa using hfull) c ((mem_chansOf _ _).mpr hm)
                  simpa [queueFull] using this
              · have : externalOpen s = false := by simpa [hb] using hext
                exact this

/-- Every take meets the condition. -/
theorem takeRecord (kind : Option ReqKind) (ring : Ring) (hs : pre s) : post (Machine.takeRecord kind ring s) := by
  unfold Machine.takeRecord
  cases kind with
  | none => exact h.takeKind hs fun r k e => by cases e
  | some k =>
    cases k with
    | move => exact h.takesEntry (by decide) hs
    | dwell => exact h.takesEntry (by decide) hs
    | setPosition => exact h.takesEntry (by decide) hs
    | mark => exact h.takesEntry (by decide) hs
    | rendezvous => exact h.takesRendezvous hs
    | setProfile =>
      refine h.takeKind hs fun r _ _ _ _ _ hc hp => ?_
      show post (admitSetProfile r _)
      unfold admitSetProfile
      split
      · exact h.refuses _ _ _ hc hp
      · rename_i i p hrec
        refine h.defines _ _ _ _ hc hp ?_ rfl
        unfold recSetProfile? at hrec
        split at hrec
        · split at hrec
          · rename_i hv; cases hrec; exact hv
          · cases hrec
        · cases hrec
    | fence => exact h.takeKind hs fun r _ _ _ _ _ hc hp => h.completes _ _ hc hp rfl
    | nop => exact h.takeKind hs fun r _ _ _ _ _ hc hp => h.completes _ _ hc hp rfl
    | halt =>
      refine h.takeKind hs fun r _ _ _ _ _ hc hp => ?_
      cases hm : haltMode? (blockByte r 9) with
      | none => simpa only [ownerPart, admitHalt, hm] using h.refuses _ _ _ hc hp
      | some mode => exact h.halts _ _ _ hc hp hm
    | resume =>
      refine h.takeKind hs fun r _ _ _ _ _ hc hp => ?_
      cases hl : (consume ring s).estopLatch with
      | true => simpa [ownerPart, admitResume, hl] using h.refuses _ _ _ hc hp
      | false => exact h.resumes _ _ hc hp hl
    | overrideRate =>
      refine h.takeKind hs fun r _ _ _ _ _ hc hp => ?_
      show post (admitOverrideRate r _)
      unfold admitOverrideRate
      simp only
      split
      · exact h.refuses _ _ _ hc hp
      · split
        · rename_i m hnone hm
          refine h.overrides _ _ _ _ _ hc hp ?_ hm rfl
          by_contra hrun
          unfold overrideRefusal at hnone
          split at hnone
          · cases hnone
          · cases hnone
        · exact h.completes _ _ hc hp rfl
        · exact h.completes _ _ hc hp rfl
    | cancelRendezvous =>
      refine h.takeKind hs fun r _ _ _ _ _ hc hp => ?_
      show post (admitCancelRendezvous r _)
      unfold admitCancelRendezvous
      split
      · exact h.cancels _ _ _ hc hp rfl
      · exact h.refuses _ _ _ hc hp
    | setWatch =>
      refine h.takeKind hs fun r _ _ _ _ _ hc hp => ?_
      show post (admitSetWatch r _)
      unfold admitSetWatch
      split
      · exact h.refuses _ _ _ hc hp
      · exact h.watches _ _ _ _ hc hp rfl
    | clearWatch =>
      refine h.takeKind hs fun r _ _ _ _ _ hc hp => ?_
      show post (admitClearWatch r _)
      unfold admitClearWatch
      split
      · exact h.refuses _ _ _ hc hp
      · exact h.watches _ _ _ _ hc hp rfl
    | setChannel =>
      refine h.takeKind hs fun r _ _ _ _ _ hc hp => ?_
      show post (admitSetChannel r _)
      unfold admitSetChannel
      simp only
      split
      · exact h.refuses _ _ _ hc hp
      · rename_i hgood
        split
        · exact h.refuses _ _ _ hc hp
        · rename_i hfree
          simp only [not_or, not_not] at hgood
          exact h.configures _ _ _ _ hc hp (by simpa using hfree) hgood.2.2 rfl
    | query =>
      refine h.takeKind hs fun r _ _ _ _ _ hc hp => ?_
      show post (admitQuery r _)
      unfold admitQuery
      simp only
      split
      · exact h.refuses _ _ _ hc hp
      · exact h.completes _ _ hc hp rfl
    | clearEstop =>
      refine h.takeKind hs fun r _ _ _ _ _ hc hp => ?_
      show post (admitClearEstop r _)
      unfold admitClearEstop
      simp only
      split
      · exact h.completes _ _ hc hp rfl
      · exact h.clears _ _ hc hp rfl

/-- A write of CTRL (R152, R168). -/
theorem writesCtrl (v : Word) (hs : pre s) : post (writeCtrl v s) := by
  unfold writeCtrl
  split
  · exact h.softResets _ hs
  · have he := h.enables s (v.getLsbD 2) hs
    generalize v.getLsbD 0 = on
    unfold writeEnable
    split
    · next hp => exact h.starts _ he hp
    · next hp => exact h.abandons _ he hp
    · next hp => exact h.drains _ he hp
    all_goals exact h.stays _ he

/-- A write of the register window (R182). -/
theorem writesWindow (offset : BitVec 6) (enables : BitVec 4) (v : Word) (hs : pre s) :
    post (writeWindow offset enables v s) := by
  have hpost (ring : Ring) : post (writePost ring v s) := by
    unfold writePost
    split
    · split
      · exact h.registers _ _ hs (registerChange_setRing rfl)
      · exact h.registers _ _ hs rfl
    · exact h.stays _ hs
  have hretire : post (writeRetire v s) := by
    unfold writeRetire
    split
    · split <;> exact h.registers _ _ hs rfl
    · exact h.stays _ hs
  have hstat : post (writeStat v s) := by
    unfold writeStat
    split
    · exact h.registers _ _ hs rfl
    · exact h.stays _ hs
  unfold writeWindow
  split
  · exact h.stays _ hs
  split
  · exact h.writesCtrl v hs
  split
  · exact hstat
  split
  · exact h.registers _ _ hs rfl
  split
  · exact h.registers _ _ hs rfl
  split
  · exact hpost .main
  split
  · exact hpost .ctrl
  split
  · exact hretire
  split
  · exact h.registers _ _ hs rfl
  · exact h.stays _ hs

/-- A timed event meets the condition once it does so at its instant. -/
theorem timed {due : Option Nat} {f : State → State} (hs : pre s) (hf : ∀ e, due = some e → e ≤ s.now → post (f s)) :
    post (atDue due f s) := by
  unfold atDue
  split
  · rename_i hr
    cases due with
    | none => cases hr
    | some e => exact hf e rfl (by simpa using hr)
  · exact h.stays _ hs

/-- The events of a channel's own timing, and the other timers. -/
theorem channelTimed (c : Chan) (hs : pre s) :
    post (atDue (dueStep (s.chan c)) (takeStepDue c) s) ∧ post (atDue (dueSettle (s.chan c)) (takeSettleEnd c) s)
      ∧ post (atDue (duePulse (s.chan c)) (takePulseEnd c) s)
      ∧ post (atDue (dueSegmentEnd (s.chan c)) (takeSegmentEnd c) s)
      ∧ post (atDue (dueStopRest (s.chan c)) (stopAtRest c) s)
      ∧ post (atDue (dueDwell (s.chan c)) (takeDwellExpiry c) s) := by
  refine ⟨?step, ?settle, ?pulse, ?segment, ?rest, ?dwell⟩
  case step =>
    refine h.timed hs fun e hd _ => ?_
    unfold takeStepDue
    split
    · refine h.steps _ _ _ hs ?_
      cases hst : (s.chan c).state <;> simp [dueStep, hst] at hd ⊢
    · exact h.stays _ hs
  case settle =>
    refine h.timed hs fun e hd _ => ?_
    unfold takeSettleEnd
    split
    · refine h.settles _ _ _ hs ?_
      unfold dueSettle at hd
      split at hd
      · rename_i hst; exact hst.1
      · cases hd
    · exact h.stays _ hs
  case pulse => exact h.timed hs fun e hd hle => h.falls _ _ e hs hd hle
  case segment =>
    refine h.timed hs fun e hd _ => ?_
    unfold takeSegmentEnd
    split
    · rename_i hst; exact h.rests _ _ hs hst
    · rename_i m hm hne
      refine h.segments _ _ _ hs ?_ hm
      cases hst : (s.chan c).state <;> simp [dueSegmentEnd, hst] at hd hne ⊢
    · exact h.stays _ hs
  case rest =>
    refine h.timed hs fun e hd _ => ?_
    unfold dueStopRest at hd
    split at hd
    · rename_i hst; exact h.rests _ _ hs hst.1
    · cases hd
  case dwell =>
    refine h.timed hs fun e hd _ => ?_
    unfold dueDwell at hd
    split at hd
    · rename_i hst hq _; exact h.dwells _ _ _ _ _ hs hst hq
    · cases hd

/-- Ends and beginnings of DMA operations, and the end of a drain. -/
theorem endsWrite (write : DmaEnd) (hs : pre s) : post (endWrite write s) ∧ post (failWrite write s) := by
  constructor
  · unfold endWrite
    split
    · rename_i hq; exact h.written _ _ _ hs hq
    · exact h.stays _ hs
  · unfold failWrite
    split
    · simp only
      split
      · rename_i hw; exact h.fails _ hs hw
      · exact h.registers _ _ hs rfl
    · exact h.stays _ hs

theorem endsFetch (ring : Ring) (read : DmaEnd) (data : Block) (hs : pre s) :
    post (beginFetch ring s) ∧ post (endFetch ring read data s) ∧ post (failFetch ring read s) := by
  refine ⟨?_, ?_, ?_⟩
  · unfold beginFetch
    simp only
    split
    · exact h.registers _ _ hs (registerChange_setRing rfl)
    · exact h.stays _ hs
  · unfold endFetch
    simp only
    split
    · split
      · exact h.registers _ _ hs (registerChange_setRing rfl)
      · exact h.stays _ hs
    · exact h.stays _ hs
  · unfold failFetch
    simp only
    split
    · split
      · exact h.fetchFails _ _ _ _ hs rfl rfl
      · exact h.stays _ hs
    · exact h.stays _ hs

theorem endsSetup (read : DmaEnd) (b : Block) (hs : pre s) : post (endSetupRead read b s) ∧ post (failSetupRead read s) := by
  constructor
  · unfold endSetupRead
    split
    · split
      · rename_i hp
        split
        · exact h.setupEnds _ _ hs hp.1
        · exact h.serves _ _ hs hp.1
      · exact h.stays _ hs
    · exact h.stays _ hs
  · unfold failSetupRead
    split
    · split
      · rename_i hp; exact h.setupEnds _ _ hs hp.1
      · exact h.stays _ hs
    · exact h.stays _ hs

theorem endsDrain (hs : pre s) : post (beginWrite s) ∧ post (completeDrain s) := by
  constructor
  · unfold beginWrite
    split
    · exact h.registers _ _ hs rfl
    · exact h.stays _ hs
  · unfold completeDrain
    split
    · rename_i hd
      simp only
      split
      · exact h.leaves _ hs hd
      · exact h.announces _ hs hd
    · exact h.stays _ hs

/-- A change that a condition guards. -/
theorem guarded {b : Bool} {t : State} (hs : pre s) (ht : b = true → post t) : post (if b then t else s) := by
  split
  · rename_i hb; exact ht hb
  · exact h.stays _ hs

/-- Every command meets the condition. -/
theorem effect (i : Instr) (hs : pre s) : post (Machine.effect i s) := by
  cases i with
  | move ring => exact h.takeRecord _ ring hs
  | dwell ring => exact h.takeRecord _ ring hs
  | setPosition ring => exact h.takeRecord _ ring hs
  | mark ring => exact h.takeRecord _ ring hs
  | rendezvous ring => exact h.takeRecord _ ring hs
  | setProfile ring => exact h.takeRecord _ ring hs
  | fence ring => exact h.takeRecord _ ring hs
  | nop ring => exact h.takeRecord _ ring hs
  | halt ring => exact h.takeRecord _ ring hs
  | resume ring => exact h.takeRecord _ ring hs
  | overrideRate ring => exact h.takeRecord _ ring hs
  | cancelRendezvous ring => exact h.takeRecord _ ring hs
  | setWatch ring => exact h.takeRecord _ ring hs
  | clearWatch ring => exact h.takeRecord _ ring hs
  | setChannel ring => exact h.takeRecord _ ring hs
  | query ring => exact h.takeRecord _ ring hs
  | clearEstop ring => exact h.takeRecord _ ring hs
  | badKindRecord ring => exact h.takeRecord _ ring hs
  | enableSet v => exact h.writesWindow _ _ v hs
  | enableClear v => exact h.writesWindow _ _ v hs
  | softReset v => exact h.writesWindow _ _ v hs
  | intEnable v => exact h.writesWindow _ _ v hs
  | setupLo v => exact h.writesWindow _ _ v hs
  | setupHi v => exact h.writesWindow _ _ v hs
  | mainPost v => exact h.writesWindow _ _ v hs
  | ctrlPost v => exact h.writesWindow _ _ v hs
  | cplRetire v => exact h.writesWindow _ _ v hs
  | intCauseClear v => exact h.writesWindow _ _ v hs
  | indexErrorClear v => exact h.writesWindow _ _ v hs
  | ignoredRegisterWrite offset enables v => exact h.writesWindow _ _ v hs
  | pinResetAssert => exact h.guarded hs fun _ => h.pinResets _ hs
  | pinResetRelease => exact h.stays _ hs
  | conventionalReset => exact h.resets _ hs
  | functionLevelReset => exact h.resets _ hs
  | estopAssertion => exact h.guarded hs fun _ => h.asserts _ (h.estopFollows _ hs)
  | estopNegation => exact h.guarded hs fun _ => h.stays _ (h.estopFollows _ hs)
  | limitQualifiedChange c input active => exact h.guarded hs fun _ => h.limitChanges _ _ _ _ hs
  | qualifiedEdge input rise => exact h.guarded hs fun _ => h.edges _ _ _ hs
  | xsyncQualified =>
    refine h.timed hs fun _ _ _ => ?_
    unfold takeXsync
    split
    · exact h.releases _ _ hs
    · exact h.stays _ hs
  | stepEmission c => exact (h.channelTimed c hs).1
  | settleEnd c => exact (h.channelTimed c hs).2.1
  | pulseEnd c => exact (h.channelTimed c hs).2.2.1
  | segmentEnd c => exact (h.channelTimed c hs).2.2.2.1
  | stopRest c => exact (h.channelTimed c hs).2.2.2.2.1
  | dwellExpiry c => exact (h.channelTimed c hs).2.2.2.2.2
  | rendezvousExpiry i =>
    show post (atDue _ (fun s => (failSlot i .expired none s).settle) s)
    exact h.timed hs fun _ _ _ => h.expires _ _ hs
  | coalescingDelayExpiry => exact h.timed hs fun _ _ _ => h.registers _ _ hs rfl
  | fetchDone ring read data => exact (h.endsFetch ring read data hs).2.1
  | fetchFault ring read => exact (h.endsFetch ring read (Vector.replicate 64 0) hs).2.2
  | completionWriteDone write => exact (h.endsWrite write hs).1
  | completionWriteFault write => exact (h.endsWrite write hs).2
  | setupReadDone read block => exact (h.endsSetup read block hs).1
  | setupReadFail read => exact (h.endsSetup read (Vector.replicate 64 0) hs).2
  | fetchBegin ring => exact (h.endsFetch ring .live (Vector.replicate 64 0) hs).1
  | completionWriteBegin => exact (h.endsDrain hs).1
  | drainComplete => exact (h.endsDrain hs).2

end EffectsMeet

end Sys2Proof.Machine
end

section
/-! What every command keeps of the part as a whole: the queue of commands, the time and the free choices, the tables' ranges, the
credits and the notices (O4, O6, O7, O11). One relation holds between the state before and after each change of a command. -/

namespace Sys2Proof.Machine

/-- An action followed by another. -/
theorem andThen_frame {s : State} {a : Act} {f : State → Act} (h : MotionFrame s a.1) (hf : ∀ u, MotionFrame u (f u).1) :
    MotionFrame s (a.andThen f).1 := h.trans (hf a.1)

/-- What no command disturbs: the queue of commands, the instant, the free choices and the messages sent stay, and the ranges of
the tables, the credits and the notices are kept. -/
structure PartFrame (s t : State) : Prop where
  pending : t.pending = s.pending
  now : t.now = s.now
  choices : t.choices = s.choices
  messages : t.messages = s.messages
  msiEnabled : t.msiEnabled = s.msiEnabled
  configs : s.configsValid → t.configsValid
  profiles : s.profilesValid → t.profilesValid
  credits : s.creditsBounded → t.creditsBounded
  notices : s.noticesBounded → t.noticesBounded

namespace PartFrame

protected theorem trans {s t u : State} (h : PartFrame s t) (k : PartFrame t u) : PartFrame s u where
  pending := k.pending.trans h.pending
  now := k.now.trans h.now
  choices := k.choices.trans h.choices
  messages := k.messages.trans h.messages
  msiEnabled := k.msiEnabled.trans h.msiEnabled
  configs := k.configs ∘ h.configs
  profiles := k.profiles ∘ h.profiles
  credits := k.credits ∘ h.credits
  notices := k.notices ∘ h.notices

end PartFrame

/-- A change that also leaves the interrupt request as it was. -/
structure PartStep (s t : State) : Prop extends PartFrame s t where
  irq : t.irq = s.irq

/-- The fields of the state that `PartStep` speaks of. -/
def State.framed (s : State) :=
  (s.pending, s.now, s.choices, s.messages, s.msiEnabled, s.irq, s.chans, s.profiles,
    (s.mainRing.credits, s.ctrlRing.credits), s.posting, s.lost)

namespace PartStep

variable {s t u : State}

/-- A change of none of the fields the relation speaks of. -/
theorem of_eq (h : t.framed = s.framed) : PartStep s t := by
  simp only [State.framed, Prod.mk.injEq] at h
  obtain ⟨hpe, hnow, hch, hmsg, hmsi, hirq, hchans, hprof, ⟨hmain, hctrl⟩, hpost, hlost⟩ := h
  refine ⟨⟨hpe, hnow, hch, hmsg, hmsi, fun hc c => ?_, ?_, ?_, ?_⟩, hirq⟩
  · have := hc c
    rwa [State.chan, ← hchans] at this
  · rw [State.profilesValid, State.profilesValid, hprof]; exact id
  · rw [State.creditsBounded, State.creditsBounded, hmain, hctrl]; exact id
  · rw [State.noticesBounded, State.noticesBounded, State.notices, State.notices, hpost, hlost]; exact id

protected theorem refl (s : State) : PartStep s s := .of_eq rfl

protected theorem trans (h : PartStep s t) (k : PartStep t u) : PartStep s u :=
  ⟨h.toPartFrame.trans k.toPartFrame, k.irq.trans h.irq⟩

/-- Every action of the motion side. -/
theorem of_motion (h : MotionFrame s t) : PartStep s t := by
  have still {α : Type} (f : State → α) : f t.still = f s.still := congrArg f h.still
  refine ⟨⟨still State.pending, still State.now, still State.choices, still State.messages, still State.msiEnabled,
    fun hc c => ?_, fun hp i p hi => ?_, ?_, h.notices⟩, still State.irq⟩
  · rw [h.cfg]; exact hc c
  · have : t.profiles = s.profiles := still State.profiles
    exact hp i p (by rw [← this]; exact hi)
  · have hm : t.mainRing = s.mainRing := still State.mainRing
    have hk : t.ctrlRing = s.ctrlRing := still State.ctrlRing
    rw [State.creditsBounded, State.creditsBounded, hm, hk]
    exact id

theorem post (s : State) (x : Cpl) (h : x.notice = false) : PartStep s (s.post x) := .of_motion (.post s x h)

theorem postNotice (s : State) (x : Cpl) (h : x.notice = true) : PartStep s (s.postNotice x) :=
  .of_motion (.postNotice s x h)

theorem settle {a : Act} (h : MotionFrame s a.1) : PartStep s a.settle := .of_motion (settle_frame_of h)

theorem register (h : RegisterChange s t) : PartStep s t := .of_eq (by rw [h]; rfl)

/-- A channel written with a configuration in its ranges. -/
theorem setChan (s : State) (c : Chan) (ch : Channel) (h : (s.chan c).cfg.valid = true → ch.cfg.valid = true) :
    PartStep s (s.setChan c ch) := by
  refine ⟨⟨rfl, rfl, rfl, rfl, rfl, fun hc d => ?_, id, id, id⟩, rfl⟩
  rw [State.chan_setChan]
  split
  · exact h (hc c)
  · exact hc d

/-- A profile written with values in their ranges. -/
theorem setProfile (s : State) (i : ProfIx) (p : Profile) (h : p.valid = true) :
    PartStep s (s.setProfile i (some p)) := by
  refine ⟨⟨rfl, rfl, rfl, rfl, rfl, id, fun hp j q hq => ?_, id, id⟩, rfl⟩
  rw [State.profiles_setProfile_get] at hq
  split at hq
  · cases hq; exact h
  · exact hp j q hq

/-- A take charges a credit that is there (R123, R125). -/
theorem consume {ring : Ring} {r : Block} (h : takeable s ring = some r) : PartStep s (consume ring s) := by
  have hcredit : creditFor s ring = true := by
    cases hc : creditFor s ring with
    | true => rfl
    | false => rw [takeable_of_noCredit hc] at h; cases h
  cases ring <;> refine ⟨⟨rfl, rfl, rfl, rfl, rfl, id, id, fun hb => ?_, id⟩, rfl⟩
  · simp only [creditFor, Bool.and_eq_true, decide_eq_true_eq] at hcredit
    show s.mainRing.credits + 1 ≤ _ ∧ s.mainRing.credits + 1 + s.ctrlRing.credits ≤ _
    omega
  · simp only [creditFor, decide_eq_true_eq] at hcredit
    obtain ⟨hmain, _⟩ := hb
    refine ⟨hmain, ?_⟩
    show s.mainRing.credits + (s.ctrlRing.credits + 1) ≤ _
    omega

/-- A completed write hands back a credit and takes a record off the posting queue (R126, R137). -/
theorem recordWritten {r : Cpl} {rest : List Cpl} (h : s.posting = r :: rest) : PartStep s (recordWritten r rest s) := by
  have pop : PartStep s { s with posting := rest, writing := none } := by
    refine ⟨⟨rfl, rfl, rfl, rfl, rfl, id, id, id, fun hn => ⟨?_, hn.2⟩⟩, rfl⟩
    refine le_trans ?_ hn.1
    simp only [State.notices, h]
    exact List.Sublist.countP_le (List.sublist_cons_self r rest)
  have advance (u : State) : PartStep u (advanceWrite u) := by unfold advanceWrite; split <;> exact .of_eq rfl
  have credit (u : State) : PartStep u (returnCredit r.charged u) := by
    unfold returnCredit
    split
    · rename_i ring _
      cases ring <;> refine ⟨⟨rfl, rfl, rfl, rfl, rfl, id, id, fun hb => ?_, id⟩, rfl⟩
      · have := hb.1; have := hb.2
        show u.mainRing.credits - 1 ≤ _ ∧ u.mainRing.credits - 1 + u.ctrlRing.credits ≤ _
        omega
      · refine ⟨hb.1, ?_⟩
        have := hb.2
        show u.mainRing.credits + (u.ctrlRing.credits - 1) ≤ _
        omega
    · exact .refl _
  have count (u : State) : PartStep u (countWrite u) := by
    unfold countWrite
    simp only
    split <;> exact .of_eq rfl
  have all := ((pop.trans (advance _)).trans (credit _)).trans (count _)
  unfold Machine.recordWritten
  simp only
  split
  · exact all.trans (.of_eq rfl)
  · exact all

/-- RESUME writes channel states alone (R61). -/
theorem resumed (l : List Chan) (s : State) : PartStep s (l.foldl resumeChan s) := by
  induction l generalizing s with
  | nil => exact .refl s
  | cons c rest ih =>
    refine .trans ?_ (ih _)
    unfold resumeChan
    split
    · exact .setChan _ _ _ id
    · exact .refl s

theorem takePulseEnd (c : Chan) (s : State) : PartStep s (takePulseEnd c s) := by
  have h (ch : Channel) (hc : ch.cfg = (s.chan c).cfg) : PartStep s (s.setChan c ch) := .setChan _ _ _ (by rw [hc]; exact id)
  unfold Machine.takePulseEnd
  simp only
  split
  · refine (h _ ?_).trans (.of_motion (postKept_frame _ _ _)); rfl
  · exact h _ rfl

theorem limitsAtRest (c : Chan) (s : State) : PartStep s (limitsAtRest c s) := by
  unfold Machine.limitsAtRest
  split
  · exact .refl s
  · exact .setChan _ _ _ (by show _ → ((s.chan c).takeLimits s.now).cfg.valid = true; rw [takeLimits_frame]; exact id)

theorem takeLimitChange (c : Chan) (input : LimitInput) (active : Bool) (s : State) :
    PartStep s (takeLimitChange c input active s) := by
  have h : PartStep s (s.setChan c ((s.chan c).setLimit input ((s.chan c).limit input).change)) :=
    .setChan _ _ _ (by rw [setLimit_frame]; exact id)
  unfold Machine.takeLimitChange
  simp only
  split
  · split
    · exact h.trans ((PartStep.postNotice _ _ rfl).trans (.settle (enterHeld_frame _ _ _)))
    · exact h
  · exact h

theorem takeAssertion (s : State) : PartStep s (takeAssertion s) := by
  unfold Machine.takeAssertion
  split
  case h_3 => exact .settle (haltMask_frame _ _ _ _)
  case h_4 | h_5 => exact .refl _
  all_goals
    split
    · exact .refl _
    · refine .trans ?_ (.postNotice _ _ rfl)
      have latched : PartStep s { s with estopLatch := true } := .of_eq rfl
      have halted := latched.trans (.settle (andThen_frame (haltMask_frame (enabledMask s) .abrupt false _)
        (failAllSlots_frame .aborted)))
      exact halted.trans (.of_eq rfl)

/-- Entry to service keeps the channels and the credits, and clears the lost count (R125, R156). -/
theorem loadSetup (b : Block) (s : State) : PartStep s (loadSetup b s) :=
  ⟨⟨rfl, rfl, rfl, rfl, rfl, id, id, id, fun hn => ⟨hn.1, Nat.zero_le _⟩⟩, rfl⟩

end PartStep

/-- A reset puts the channels' configurations at their reset values (R52, R168). -/
theorem cfg_resetPart (s : State) (c : Chan) : ((resetPart s).chan c).cfg = ChanConfig.reset := by
  show (updateAll allChans (fun _ ch => resetChannel ch) s.chans)[c].cfg = _
  rw [updateAll_get _ (by decide)]
  simp only [mem_allChans, if_true]
  rfl

/-- A reset keeps the queue of commands, the time and the messages, and meets the ranges (R168). -/
theorem resetPart_frame (s : State) : PartFrame s (resetPart s) where
  pending := rfl
  now := rfl
  choices := rfl
  messages := rfl
  msiEnabled := rfl
  configs _ c := by rw [cfg_resetPart]; rfl
  profiles _ i p h := by
    have hz : ∀ j : ProfIx, State.reset.profiles[j] = none := by decide
    cases (hz i).symm.trans h
  credits _ := ⟨Nat.zero_le _, Nat.zero_le _⟩
  notices _ := ⟨Nat.zero_le _, Nat.zero_le _⟩

theorem softResetPart_frame (s : State) : PartFrame s (softResetPart s) :=
  (resetPart_frame s).trans (PartStep.of_eq (s := resetPart s) (t := softResetPart s) rfl).toPartFrame

/-- The state after the pin reset's change keeps the ranges. -/
theorem changeReset_frame (s : State) : PartFrame s (changeReset s) :=
  (PartStep.of_eq (s := s) (t := { s with rst := s.rst.change }) rfl).toPartFrame.trans (resetPart_frame _)

/-- What every command keeps: the interrupt request too, but for a reset, which leaves no cause set (R144, R168). -/
theorem effect_partFrame (i : Instr) (s : State) :
    PartFrame s (effect i s) ∧ ((effect i s).irq = s.irq ∨ (effect i s).intCause = 0) := by
  have step {t u : State} (h : PartStep s t) (k : PartStep t u) : PartFrame s u ∧ (u.irq = s.irq ∨ u.intCause = 0) :=
    ⟨(h.trans k).toPartFrame, .inl (h.trans k).irq⟩
  have moved {t : State} {a : Act} (h : PartStep s t) (k : MotionFrame t a.1) :
      PartFrame s a.settle ∧ (a.settle.irq = s.irq ∨ a.settle.intCause = 0) := step h (.settle k)
  have all : EffectsMeet (PartStep s) fun t => PartFrame s t ∧ (t.irq = s.irq ∨ t.intCause = 0) := {
    stays t h := ⟨h.toPartFrame, .inl h.irq⟩
    consumes t ring r h ht := h.trans (.consume ht)
    completes t x h _ hx := step h (.post t x hx)
    admits t c e h _ _ := moved h (appendEntry_frame _ _ _)
    opens t r i h _ _ _ _ _ :=
      moved (h.trans (.of_eq rfl : PartStep t (openSlot i (openedSlot r) t)))
        (eachAct_frame _ _ (fun c => appendEntry_frame c _) _)
    defines t i p x h _ hp hx := step (h.trans (.setProfile t i p hp)) (.post _ x hx)
    halts t r mode h _ hm := by
      simp only [admitHalt, hm]
      exact step (h.trans (.settle (haltMask_frame _ _ _ _))) (.of_eq rfl)
    resumes t r h _ hl := by
      simp only [admitResume, hl, Bool.false_eq_true, if_false]
      exact step (h.trans (.resumed _ _)) (.post _ _ rfl)
    overrides t c m vc x h _ _ _ hx := by
      have hset : PartStep t (t.setChan c (overrideHead (t.chan c) m vc)) := .setChan _ _ _ id
      exact step (h.trans hset) (.post _ x hx)
    cancels t i x h _ hx := step (h.trans (.settle (failSlot_frame _ _ _ _))) (.post _ x hx)
    watches t i w x h _ hx := step (h.trans (.of_motion (setWatch_frame _ _ _))) (.post _ x hx)
    configures t c cfg x h _ _ hv hx := by
      have hset : PartStep t (t.setChan c (configure (t.chan c) cfg t.estopLatch)) := .setChan _ _ _ fun _ => hv
      exact step (h.trans hset) (.post _ x hx)
    clears t x h _ hx :=
      step (h.trans (.of_eq rfl : PartStep t { t with estopLatch := false })) (.post _ x hx)
    registers t u h hu := step h (.register hu)
    enables t b h := h.trans (.of_eq rfl)
    starts t h _ := by
      refine step h ?_
      unfold enterStarting
      simp only
      split <;> exact .of_eq rfl
    abandons t h _ := step h (.of_eq rfl)
    drains t h _ := moved (h.trans (.of_eq rfl : PartStep t (stopIntake { t with part := .draining })))
      (andThen_frame (haltMask_frame _ _ _ _) (failAllSlots_frame _))
    softResets t h := ⟨h.toPartFrame.trans (softResetPart_frame t), .inr rfl⟩
    resets t h := ⟨h.toPartFrame.trans (resetPart_frame t), .inr rfl⟩
    pinResets t h := ⟨h.toPartFrame.trans (changeReset_frame t), .inr rfl⟩
    estopFollows t h := h.trans (.of_eq rfl)
    asserts t h := step h (.takeAssertion t)
    limitChanges t c input active h := step h (.takeLimitChange c input active t)
    edges t input rise h := moved (h.trans (.of_eq rfl : PartStep t (changeCapture input t))) (takeEdge_frame _ _ _)
    releases t i h := moved h (releaseSlot_frame _ _)
    steps t c rateSq h _ := moved h (emitStep_frame _ _ _)
    settles t c entrySq h _ := by
      have hset : PartStep t (t.modChan c fun ch => { ch with pgn := { ch.pgn with settleEnd := none } }) :=
        .setChan _ _ _ id
      exact moved (h.trans hset) (firstStep_frame _ _ _)
    falls t c e h _ _ := step h (.takePulseEnd c t)
    segments t c m h _ _ := moved (h.trans (.limitsAtRest c t)) (endSegment_frame _ _ _)
    rests t c h _ := step h (.of_motion (stopAtRest_frame c t))
    dwells t c tag duration rest h _ hq := by
      simp only [takeDwellExpiry, hq]
      have hset : PartStep t (t.modChan c fun ch => { ch with dwellStart := none }) := .setChan _ _ _ id
      exact moved ((h.trans hset).trans (.post _ _ rfl)) (runHead_frame _ _ _)
    expires t i h := moved h (failSlot_frame _ _ _ _)
    fetchFails t ring r x h hr hx := step (h.trans (.register (registerChange_setRing hr))) (.postNotice _ x hx)
    written t r rest h hq := step h (.recordWritten hq)
    fails t h _ := moved
      (h.trans (.of_eq rfl : PartStep t (stopIntake
        { { t with writing := none }.raise causeFault with part := .failed, faultCode := .completionWrite })))
      (andThen_frame (haltMask_frame _ _ _ _) (failAllSlots_frame _))
    setupEnds t code h _ := step h (.of_eq rfl)
    serves t b h _ := by
      unfold enterRunning
      simp only
      split
      · exact step (h.trans (.loadSetup b t)) (.takeAssertion _)
      · exact step h (.loadSetup b t)
    leaves t h _ := step h (.of_eq rfl)
    announces t h _ := step h (.of_eq rfl) }
  exact all.effect i (.refl s)

/-- The end of every command keeps what a command keeps; it hands over completions of HALTs, which are no notices. -/
theorem finish_partFrame (s : State) :
    (finish s).pending = s.pending ∧ (finish s).now = s.now ∧ (finish s).choices = s.choices
      ∧ (s.configsValid → (finish s).configsValid) ∧ (s.profilesValid → (finish s).profilesValid)
      ∧ (s.creditsBounded → (finish s).creditsBounded) ∧ (s.noticesBounded → (finish s).noticesBounded) := by
  rw [finish_eq]
  refine ⟨rfl, rfl, rfl, id, id, id, fun hn => ⟨?_, hn.2⟩⟩
  have hz : (haltsDone s s).countP (·.notice) = 0 := by
    rw [List.countP_eq_zero]
    intro x hx
    obtain ⟨_, _, rfl⟩ := List.mem_map.mp hx
    exact Bool.false_ne_true
  simpa [State.notices, hz] using hn.1

/-- Settles O4: every command is an effect and the end of a command, and neither touches the queue, the choices or the time. -/
theorem everyCommandAnswersNext : Obligations.EveryCommandAnswersNext := by
  intro i s
  obtain h | ⟨_, h⟩ | ⟨_, _, h⟩ := exec_cases i s
  · exact ⟨s, h, rfl, rfl, rfl⟩
  · obtain ⟨hp, hn, hc, _⟩ := finish_partFrame (effect i s)
    have he := (effect_partFrame i s).1
    exact ⟨_, h, hp.trans he.pending, hc.trans he.choices, hn.trans he.now⟩
  · obtain ⟨hp, hn, hc, _⟩ := finish_partFrame (changeReset s)
    exact ⟨_, h, hp, hc, hn⟩

/-- A condition that every command's effect, the end of a command and a cycle keep is kept by a step. -/
theorem step_keeps {p : State → Prop} (queued : ∀ s pending choices, p s → p { s with pending := pending, choices := choices })
    (ticks : ∀ q s, p s → p (tickWith q s)) (finishes : ∀ s, p s → p (finish s)) (acts : ∀ i s, p s → p (effect i s))
    (resets : ∀ s, p s → p (changeReset s)) {s t : State} (hs : p s) (hst : step s = .next t) : p t :=
  step_meets queued (fun _ h => h) ticks (fun i s _ h => finishes _ (acts i s h)) (fun s h => finishes _ (resets s h)) hs hst

/-- A cycle leaves the tables, the credits, the posting queue and the interrupt request as they are. -/
theorem tickWith_framed (p : Inputs) (s : State) :
    (tickWith p s).profiles = s.profiles ∧ (tickWith p s).mainRing = s.mainRing ∧ (tickWith p s).ctrlRing = s.ctrlRing
      ∧ (tickWith p s).posting = s.posting ∧ (tickWith p s).lost = s.lost ∧ (tickWith p s).irq = s.irq
      ∧ (tickWith p s).intCause = s.intCause ∧ (tickWith p s).intEnable = s.intEnable
      ∧ (tickWith p s).messages = s.messages := by
  unfold tickWith State.nextCycle
  split <;> [skip; split] <;> exact ⟨rfl, rfl, rfl, rfl, rfl, rfl, rfl, rfl, rfl⟩

/-- Settles O6: only SET_CHANNEL, SET_PROFILE and a reset write a record or a profile, and each writes values in range. -/
theorem stepKeepsTablesValid : Obligations.StepKeepsTablesValid := by
  refine ⟨fun s t hs => step_keeps (fun _ _ _ h => h) (fun p s h c => ?_) (fun s => (finish_partFrame s).2.2.2.1)
      (fun i s => (effect_partFrame i s).1.configs) (fun s => (changeReset_frame s).configs) hs,
    fun s t hs => step_keeps (fun _ _ _ h => h) (fun p s h => ?_) (fun s => (finish_partFrame s).2.2.2.2.1)
      (fun i s => (effect_partFrame i s).1.profiles) (fun s => (changeReset_frame s).profiles) hs⟩
  · rw [chan_tickWith]
    exact h c
  · rw [State.profilesValid, (tickWith_framed p s).1]
    exact h

/-- Settles O7: a take charges a credit only where one is free, and a notice joins only where there is room. -/
theorem stepKeepsCreditsAndNoticesBounded : Obligations.StepKeepsCreditsAndNoticesBounded := by
  refine ⟨fun s t hs => step_keeps (fun _ _ _ h => h) (fun p s h => ?_) (fun s => (finish_partFrame s).2.2.2.2.2.1)
      (fun i s => (effect_partFrame i s).1.credits) (fun s => (changeReset_frame s).credits) hs,
    fun s t hs => step_keeps (fun _ _ _ h => h) (fun p s h => ?_) (fun s => (finish_partFrame s).2.2.2.2.2.2)
      (fun i s => (effect_partFrame i s).1.notices) (fun s => (changeReset_frame s).notices) hs⟩
  · obtain ⟨_, hmain, hctrl, _⟩ := tickWith_framed p s
    rw [State.creditsBounded, hmain, hctrl]
    exact h
  · obtain ⟨_, _, _, hpost, hlost, _⟩ := tickWith_framed p s
    rw [State.noticesBounded, State.notices, hpost, hlost]
    exact h

/-- One message is sent in a step that asserts the request while messages are enabled, and none in another (R147). -/
theorem messages_step {s t : State} (hst : step s = .next t) :
    t.messages = s.messages + if t.irq = true ∧ s.irq = false ∧ s.msiEnabled = true then 1 else 0 := by
  have quiet {u : State} (hm : u.messages = s.messages) (hi : u.irq = s.irq) :
      u.messages = s.messages + if u.irq = true ∧ s.irq = false ∧ s.msiEnabled = true then 1 else 0 := by
    rw [hm, hi, if_neg (by rintro ⟨h1, h2, _⟩; rw [h1] at h2; cases h2), Nat.add_zero]
  have acts {v : State} (hm : v.messages = s.messages) (he : v.msiEnabled = s.msiEnabled)
      (hi : v.irq = s.irq ∨ v.intCause = 0) : (finish v).messages
      = s.messages + if (finish v).irq = true ∧ s.irq = false ∧ s.msiEnabled = true then 1 else 0 := by
    rcases hi with hi | hz
    · rw [messages_finish, hm, he, hi]
    · have hno : (finish v).irq = false := by rw [irq_finish, hz]; rfl
      rw [messages_finish, hm, hno]
      simp
  unfold step at hst
  split at hst
  · cases hst
    obtain h | ⟨pending, choices, h⟩ := idle_cases s
    · obtain ⟨_, _, _, _, _, hirq, _, _, hmsg⟩ := tickWith_framed (Config.inputs s.now) s
      rw [h]
      exact quiet hmsg hirq
    · rw [h]
      exact quiet rfl rfl
  · rename_i c rest _
    obtain h | ⟨hr, h⟩ | ⟨_, _, h⟩ := exec_cases c { s with pending := rest } <;> rw [h] at hst <;> cases hst
    · exact quiet rfl rfl
    · obtain ⟨hf, hi⟩ := effect_partFrame c { s with pending := rest }
      exact acts hf.messages hf.msiEnabled hi
    · exact acts rfl rfl (.inr rfl)

/-- Settles O11: the end of every command sets the request from the causes, and a cycle leaves all three alone. -/
theorem stepKeepsIrqFollowing : Obligations.StepKeepsIrqFollowing := by
  refine ⟨fun s t hs => step_meets (pre := State.irqFollows) (fun _ _ _ h => h) (fun _ h => h) (fun p s h => ?_)
      (fun i s _ _ => ?_) (fun s _ => ?_) hs,
    fun s t => messages_step, fun s => ⟨fun h => ?_, fun h => ?_⟩⟩
  · obtain ⟨_, _, _, _, _, hirq, hcause, henable, _⟩ := tickWith_framed p s
    rw [State.irqFollows, hirq, hcause, henable]
    exact h
  · exact rfl
  · exact rfl
  · simp [State.legacyInterrupt, h]
  · simp [State.legacyInterrupt, h]

end Sys2Proof.Machine
end

section
/-! What the actions of the motion side do to one channel: a first step, the entries of a channel at rest run from the head, and the
channel states that a step's signals lead to. Each is a function of the channel and the instant alone. -/

namespace Sys2Proof.Machine

/-! ### The channel after a step, a first step and a run of entries -/

/-- A channel that emits a step now (R31 to R33). -/
def Channel.afterEmit (ch : Channel) (now rateSq : Nat) : Channel := afterStep (stepEdge ch now rateSq) now

/-- A channel at boundary 0 of a segment: its first step is emitted at once, or scheduled for the end of the hold (R35, R45). -/
def Channel.afterFirst (ch : Channel) (now entrySq : Nat) : Channel :=
  let z := boundaryZero ch entrySq
  if now < holdUntil z then { z with pgn := { z.pgn with schedule := some { due := holdUntil z, rateSq := entrySq } } }
  else z.afterEmit now entrySq

/-- A channel whose MOVE has passed its start checks (R13, R20), before SETTLE or the first step. -/
def Channel.begun (ch : Channel) (m : MoveEntry) (r : Resolved) (behind : List Entry) : Channel :=
  { ch with
    state := .running
    queue := .move m :: behind
    resolved := some r
    binding := if m.exitRate.isSome then .pending else .notChained
    watchHalt := false
    pgn := { ch.pgn.atRest with remaining := r.steps, dirHigh := dirLevelFor ch.cfg.dirPolarity r.positive } }

/-- A channel as a MOVE with steps to emit reaches its head at rest (R13, R14). -/
def Channel.afterStart (ch : Channel) (now : Nat) (m : MoveEntry) (r : Resolved) (behind : List Entry) : Channel :=
  if softLimitOk ch.cfg r.endPos = false ∨ limitBlocks ch r.positive = true then ch.emptied .held
  else if ch.pgn.dirHigh = dirLevelFor ch.cfg.dirPolarity r.positive then
    (ch.begun m r behind).afterFirst now (m.profile.vs ^ 2)
  else
    { ch.begun m r behind with
      pgn := { (ch.begun m r behind).pgn with
        phase := .settle, settleEnd := some (now + usCycles ch.cfg.dirSettle) } }

/-- A channel at rest after the given entries have run from the head on (R9). -/
def Channel.afterRun (now : Nat) : List Entry → Channel → Channel
  | [], ch => ch.emptied .idle
  | .setPosition _ value :: rest, ch => afterRun now rest { ch with pgn := { ch.pgn with position := value } }
  | .mark _ _ _ :: rest, ch => afterRun now rest ch
  | .move m :: rest, ch =>
    let r := resolveMove m ch.pgn.position.toInt
    if r.steps = 0 then afterRun now rest ch else ch.afterStart now m r rest
  | .dwell tag duration :: rest, ch =>
    { ch.emptied .dwelling with queue := .dwell tag duration :: rest, dwellStart := some now }
  | .marker slot :: rest, ch => { ch.emptied .waiting with queue := .marker slot :: rest }

/-! ### What a run changes -/

/-- What the entries of channel c change as they run: that channel, to a value fixed by the channel and the instant, and the
watches, the AUX latch and the posting queue. -/
structure RunsOn (c : Chan) (s t : State) (after : Channel) : Prop where
  chan : t.chan c = after
  others : ∀ d, d ≠ c → t.chan d = s.chan d
  frame : t = { s with chans := t.chans, watches := t.watches, aux := t.aux, posting := t.posting }

namespace RunsOn

variable {c : Chan} {s t u : State} {x y : Channel}

theorem setChan (c : Chan) (s : State) (x : Channel) : RunsOn c s (s.setChan c x) x :=
  ⟨by simp, fun d hd => by rw [State.chan_setChan, if_neg hd], rfl⟩

theorem trans (h : RunsOn c s t x) (k : RunsOn c t u y) : RunsOn c s u y where
  chan := k.chan
  others d hd := (k.others d hd).trans (h.others d hd)
  frame := by rw [k.frame, h.frame]

theorem of_onChannel (h : OnChannel c s t x) : RunsOn c s t x := ⟨h.chan, h.others, by rw [h.frame]⟩

/-- A record handed over after the run. -/
theorem post (h : RunsOn c s t x) (r : Cpl) : RunsOn c s (t.post r) x := ⟨h.chan, h.others, by rw [h.frame]; rfl⟩

theorem now (h : RunsOn c s t x) : t.now = s.now := by rw [h.frame]

/-- The slots, the open list and XSYNC are none of a run's. -/
theorem slotFields (h : RunsOn c s t x) : t.slots = s.slots ∧ t.openList = s.openList ∧ t.xsyncLow = s.xsyncLow
    ∧ t.xsyncRun = s.xsyncRun := by
  rw [h.frame]
  exact ⟨rfl, rfl, rfl, rfl⟩

end RunsOn

theorem emitStep_runsOn (c : Chan) (rateSq : Nat) (s : State) :
    RunsOn c s (emitStep c rateSq s).1 ((s.chan c).afterEmit s.now rateSq) :=
  ⟨by simp [emitStep, Channel.afterEmit], fun d hd => by simp [emitStep, State.chan_setChan_of_ne s hd], rfl⟩

theorem firstStep_runsOn (c : Chan) (entrySq : Nat) (s : State) :
    RunsOn c s (firstStep c entrySq s).1 ((s.chan c).afterFirst s.now entrySq) := by
  unfold firstStep Channel.afterFirst
  simp only
  split
  · exact .setChan _ _ _
  · have h := (RunsOn.setChan c s (boundaryZero (s.chan c) entrySq)).trans (emitStep_runsOn c entrySq _)
    rwa [State.chan_setChan_self] at h

theorem failStart_runsOn (c : Chan) (m : MoveEntry) (status : Status) (behind : List Entry) (s : State) :
    RunsOn c s (failStart c m status behind s).1 ((s.chan c).emptied .held) := by
  have h := (RunsOn.setChan c s ((s.chan c).emptied .held)).trans (.of_onChannel (flushBehind_on c behind _))
  rw [State.chan_setChan_self] at h
  exact h.post _

theorem startMove_runsOn (c : Chan) (m : MoveEntry) (r : Resolved) (behind : List Entry) (s : State) :
    RunsOn c s (startMove c m r behind s).1 ((s.chan c).afterStart s.now m r behind) := by
  unfold startMove Channel.afterStart
  cases hsoft : softLimitOk (s.chan c).cfg r.endPos with
  | false => simpa using failStart_runsOn c m .range behind s
  | true =>
    cases hblock : limitBlocks (s.chan c) r.positive with
    | true => simpa using failStart_runsOn c m .limit behind s
    | false =>
      simp only [Bool.not_true, Bool.false_eq_true, if_false, or_self, beginMove, reduceCtorEq]
      split
      · have h := (RunsOn.setChan c s ((s.chan c).begun m r behind)).trans (firstStep_runsOn c (m.profile.vs ^ 2) _)
        rwa [State.chan_setChan_self] at h
      · exact .setChan _ _ _

theorem runSetPosition_runsOn (c : Chan) (tag value : Word) (s : State) :
    RunsOn c s (runSetPosition c tag value s) { s.chan c with pgn := { (s.chan c).pgn with position := value } } := by
  have hset := RunsOn.setChan c s { s.chan c with pgn := { (s.chan c).pgn with position := value } }
  have hr := (rearmCooling_rearmed c value
    (s.setChan c { s.chan c with pgn := { (s.chan c).pgn with position := value } })).2
  have h : RunsOn c s (rearmCooling c value (s.modChan c fun ch => { ch with pgn := { ch.pgn with position := value } }))
      { s.chan c with pgn := { (s.chan c).pgn with position := value } } := by
    unfold State.modChan
    rw [hr]
    exact ⟨hset.chan, hset.others, rfl⟩
  exact h.post _

theorem runMark_runsOn (c : Chan) (tag : Word) (set clear : Mask) (s : State) :
    RunsOn c s (runMark c tag set clear s) (s.chan c) := ⟨rfl, fun _ _ => rfl, rfl⟩

/-- The entries of a channel at rest change that channel to a value fixed by it, and no other channel and no slot (R9). -/
theorem runHead_runsOn (c : Chan) (l : List Entry) (s : State) :
    RunsOn c s (runHead c l s).1 ((s.chan c).afterRun s.now l) := by
  induction l generalizing s with
  | nil => exact .setChan _ _ _
  | cons e rest ih =>
    cases e with
    | move m =>
      unfold runHead Channel.afterRun
      simp only
      have hpos : s.position c = (s.chan c).pgn.position := rfl
      rw [hpos]
      split
      · have h := ih (runZeroMove c m s)
        exact ⟨h.chan, h.others, h.frame⟩
      · exact startMove_runsOn c m _ rest s
    | dwell tag d => exact .setChan _ _ _
    | setPosition tag v =>
      have h := runSetPosition_runsOn c tag v s
      have k := h.trans (ih (runSetPosition c tag v s))
      rwa [h.chan, h.now] at k
    | mark tag a b =>
      have h := runMark_runsOn c tag a b s
      exact h.trans (ih (runMark c tag a b s))
    | marker i => exact .setChan _ _ _

/-! ### The states and the queue that a run leads to -/

theorem boundaryZero_frame (ch : Channel) (u : Nat) :
    boundaryZero ch u = { ch with
      binding := (boundaryZero ch u).binding
      pgn := { ch.pgn with phase := (boundaryZero ch u).pgn.phase, lastVtSq := (boundaryZero ch u).pgn.lastVtSq } } := by
  unfold boundaryZero
  split <;> rfl

/-- What follows the emission of a step writes the binding record, the phase, the schedule, the end of the last period and the Vt
of the last boundary (R31, R36 to R39, R44). -/
theorem afterStep_frame (ch : Channel) (now : Nat) :
    afterStep ch now = { ch with
      binding := (afterStep ch now).binding
      pgn := { ch.pgn with
        phase := (afterStep ch now).pgn.phase, schedule := (afterStep ch now).pgn.schedule,
        lastEnd := (afterStep ch now).pgn.lastEnd, lastVtSq := (afterStep ch now).pgn.lastVtSq } } := by
  unfold afterStep
  split
  · rfl
  · split
    · rfl
    · split
      · unfold boundaryStop; simp only; split <;> rfl
      · unfold boundaryRate; simp only; split <;> [rfl; split <;> rfl]

/-- What the emission of a step leaves of the channel. -/
theorem afterEmit_frame (ch : Channel) (now rateSq : Nat) :
    ch.afterEmit now rateSq = { ch with
      binding := (ch.afterEmit now rateSq).binding
      pgn := { (stepEdge ch now rateSq).pgn with
        phase := (ch.afterEmit now rateSq).pgn.phase, schedule := (ch.afterEmit now rateSq).pgn.schedule,
        lastEnd := (ch.afterEmit now rateSq).pgn.lastEnd, lastVtSq := (ch.afterEmit now rateSq).pgn.lastVtSq } } :=
  afterStep_frame (stepEdge ch now rateSq) now

/-- What a first step leaves of the channel outside its generator. -/
theorem afterFirst_frame (ch : Channel) (now entrySq : Nat) :
    ch.afterFirst now entrySq = { ch with
      binding := (ch.afterFirst now entrySq).binding, pgn := (ch.afterFirst now entrySq).pgn } := by
  unfold Channel.afterFirst
  simp only
  split
  · rw [boundaryZero_frame]
  · rw [afterEmit_frame, boundaryZero_frame]

/-- A MOVE at the head leaves the channel RUNNING it, or HELD with an empty queue (R13, R14). -/
theorem afterStart_cases (ch : Channel) (now : Nat) (m : MoveEntry) (r : Resolved) (behind : List Entry) :
    ch.afterStart now m r behind = ch.emptied .held
      ∨ ((ch.afterStart now m r behind).state = .running ∧ (ch.afterStart now m r behind).queue = .move m :: behind) := by
  unfold Channel.afterStart
  split
  · exact .inl rfl
  · split
    · rw [afterFirst_frame]; exact .inr ⟨rfl, rfl⟩
    · exact .inr ⟨rfl, rfl⟩

/-- Whatever entries run, the channel comes to a queue that its state calls for (R9, R51). -/
theorem shaped_afterRun (now : Nat) (l : List Entry) (ch : Channel) : (ch.afterRun now l).shaped = true := by
  induction l generalizing ch with
  | nil => rfl
  | cons e rest ih =>
    cases e with
    | move m =>
      unfold Channel.afterRun
      simp only
      split
      · exact ih ch
      · obtain h | ⟨hst, hq⟩ := afterStart_cases ch now m (resolveMove m ch.pgn.position.toInt) rest
        · rw [h]
          rfl
        · simp [Channel.shaped, hst, hq]
    | dwell tag d => rfl
    | setPosition tag v => exact ih _
    | mark tag a b => exact ih ch
    | marker i => rfl

/-- A run of entries leaves a queue no longer than they were. -/
theorem length_afterRun (now : Nat) (l : List Entry) (ch : Channel) : (ch.afterRun now l).queue.length ≤ l.length := by
  induction l generalizing ch with
  | nil => exact le_rfl
  | cons e rest ih =>
    have hle : rest.length ≤ (e :: rest).length := Nat.le_succ _
    cases e with
    | move m =>
      unfold Channel.afterRun
      simp only
      split
      · exact (ih ch).trans hle
      · obtain h | ⟨_, hq⟩ := afterStart_cases ch now m (resolveMove m ch.pgn.position.toInt) rest
        · rw [h]; exact Nat.zero_le _
        · rw [hq]
    | dwell tag d => exact le_rfl
    | setPosition tag v => exact (ih _).trans hle
    | mark tag a b => exact (ih ch).trans hle
    | marker i => exact le_rfl

/-! ### Halt orders -/

/-- A channel whose queue is closed (R5, R53 to R57). -/
def Channel.stopped (ch : Channel) : Prop := ch.state = .stopping ∨ ch.state = .held ∨ ch.state = .disabled

/-- A channel held at once is HELD with an empty queue, and its pins and position are as they were (R45, R56). -/
theorem afterHeld_spec (ch : Channel) (b : Bool) :
    (ch.afterHeld b).state = .held ∧ (ch.afterHeld b).queue = []
      ∧ (ch.afterHeld b).pgn.pulseEnd = ch.pgn.pulseEnd ∧ (ch.afterHeld b).pgn.dirHigh = ch.pgn.dirHigh
      ∧ (ch.afterHeld b).pgn.position = ch.pgn.position := by
  unfold Channel.afterHeld
  split
  · refine ⟨rfl, rfl, ?_⟩
    cases hp : ch.pgn.pulseEnd <;> simp [Pgn.abruptStop, hp, Pgn.atRest]
  · exact ⟨rfl, rfl, rfl, rfl, rfl⟩

/-- A DECEL order leaves a channel with a head MOVE STOPPING with it alone, or HELD with an empty queue, and its pins and
position as they were (R43, R55). -/
theorem afterStopping_spec (ch : Channel) :
    (ch.afterStopping = ch ∧ ch.headMove? = none
      ∨ (ch.afterStopping.state = .held ∧ ch.afterStopping.queue = [])
      ∨ (ch.afterStopping.state = .stopping ∧ ∃ m behind, ch.queue = .move m :: behind ∧ ch.afterStopping.queue = [.move m]))
    ∧ ch.afterStopping.pgn.pulseEnd = ch.pgn.pulseEnd ∧ ch.afterStopping.pgn.dirHigh = ch.pgn.dirHigh
    ∧ ch.afterStopping.pgn.position = ch.pgn.position := by
  unfold Channel.afterStopping
  cases hm : ch.headMove? with
  | none => exact ⟨.inl ⟨rfl, rfl⟩, rfl, rfl, rfl⟩
  | some m =>
    obtain ⟨behind, hq⟩ : ∃ behind, ch.queue = .move m :: behind := by
      unfold Channel.headMove? at hm
      split at hm
      · cases hm; exact ⟨_, by assumption⟩
      · cases hm
    have hpgn (p : Pgn) (prof : Profile) : (p.startStopping prof).pulseEnd = p.pulseEnd
        ∧ (p.startStopping prof).dirHigh = p.dirHigh ∧ (p.startStopping prof).position = p.position := by
      unfold Pgn.startStopping
      simp only
      split
      · exact ⟨rfl, rfl, rfl⟩
      · split <;> exact ⟨rfl, rfl, rfl⟩
    simp only
    split
    · exact ⟨.inr (.inl ⟨rfl, rfl⟩), hpgn _ _⟩
    · exact ⟨.inr (.inr ⟨rfl, m, behind, hq, by rw [hq]; rfl⟩), hpgn _ _⟩

/-- A halt order leaves the pins, the position, the configuration and the limit qualifiers as they were (R53). -/
theorem afterOrder_keeps (ch : Channel) (mode : StopMode) (byWatch : Bool) :
    (ch.afterOrder mode byWatch).pgn.pulseEnd = ch.pgn.pulseEnd
      ∧ (ch.afterOrder mode byWatch).pgn.dirHigh = ch.pgn.dirHigh
      ∧ (ch.afterOrder mode byWatch).pgn.position = ch.pgn.position := by
  have hm : ∀ x : Channel, x = (if byWatch then { ch with watchHalt := true } else ch) → x.pgn = ch.pgn := by
    rintro x rfl
    split <;> rfl
  unfold Channel.afterOrder
  simp only
  generalize hx : (if byWatch then { ch with watchHalt := true } else ch) = x
  have hpgn := hm x hx.symm
  have hheld := (afterHeld_spec x false).2.2
  have hstop := (afterStopping_spec x).2
  rw [hpgn] at hheld hstop
  cases ch.state
  · exact ⟨rfl, rfl, rfl⟩
  · exact (afterHeld_spec ch false).2.2
  · simp only
    split
    · exact hheld
    · exact hstop
  · exact hheld
  · exact hheld
  · simp only
    split
    · exact hheld
    · rw [hpgn]; exact ⟨rfl, rfl, rfl⟩
  · exact ⟨rfl, rfl, rfl⟩

/-- What a halt order finds and leaves (R53): a HELD or DISABLED channel as it was, a STOPPING one STOPPING or HELD, and any other
HELD, or, under DECEL, as its stopping law begins. -/
theorem afterOrder_cases (ch : Channel) (mode : StopMode) (byWatch : Bool) :
    ((ch.state = .held ∨ ch.state = .disabled) ∧ ch.afterOrder mode byWatch = ch)
      ∨ ((ch.afterOrder mode byWatch).state = .held ∧ (ch.afterOrder mode byWatch).queue = [])
      ∨ (ch.state = .stopping ∧ (ch.afterOrder mode byWatch).state = .stopping
          ∧ (ch.afterOrder mode byWatch).queue = ch.queue)
      ∨ (ch.state = .running ∧ ∃ w, ch.afterOrder mode byWatch = { ch with watchHalt := w }.afterStopping) := by
  unfold Channel.afterOrder
  cases hst : ch.state <;> simp only
  · exact .inl ⟨.inr trivial, trivial⟩
  · exact .inr (.inl ⟨(afterHeld_spec _ _).1, (afterHeld_spec _ _).2.1⟩)
  · split
    · exact .inr (.inl ⟨(afterHeld_spec _ _).1, (afterHeld_spec _ _).2.1⟩)
    · refine .inr (.inr (.inr ⟨trivial, ?_⟩))
      refine ⟨ch.watchHalt || byWatch, ?_⟩
      rw [← hst]
      cases byWatch
      · rw [Bool.or_false]; rfl
      · rw [Bool.or_true]; rfl
  · exact .inr (.inl ⟨(afterHeld_spec _ _).1, (afterHeld_spec _ _).2.1⟩)
  · exact .inr (.inl ⟨(afterHeld_spec _ _).1, (afterHeld_spec _ _).2.1⟩)
  · split
    · exact .inr (.inl ⟨(afterHeld_spec _ _).1, (afterHeld_spec _ _).2.1⟩)
    · refine .inr (.inr (.inl ?_))
      cases byWatch
      · exact ⟨trivial, hst, rfl⟩
      · exact ⟨trivial, rfl, rfl⟩
  · exact .inl ⟨.inl trivial, trivial⟩

/-- A HELD or DISABLED channel takes no order (R53). -/
theorem afterOrder_of_held {ch : Channel} (h : ch.state = .held ∨ ch.state = .disabled) (mode : StopMode) (byWatch : Bool) :
    ch.afterOrder mode byWatch = ch := by
  rcases h with h | h <;> simp [Channel.afterOrder, h]

/-- A stopped channel stays stopped. -/
theorem stopped_afterOrder {ch : Channel} (h : ch.stopped) (mode : StopMode) (byWatch : Bool) :
    (ch.afterOrder mode byWatch).stopped := by
  obtain ⟨_, he⟩ | ⟨hs, _⟩ | ⟨_, hs, _⟩ | ⟨hr, _⟩ := afterOrder_cases ch mode byWatch
  · rwa [he]
  · exact .inr (.inl hs)
  · exact .inl hs
  · rcases h with h | h | h <;> rw [h] at hr <;> cases hr

/-- A halt order stops a channel whose queue is as its state says (R51, R53). -/
theorem stopped_of_shaped {ch : Channel} (h : ch.shaped = true) (mode : StopMode) (byWatch : Bool) :
    (ch.afterOrder mode byWatch).stopped := by
  obtain ⟨hs, he⟩ | ⟨hs, _⟩ | ⟨_, hs, _⟩ | ⟨hr, w, he⟩ := afterOrder_cases ch mode byWatch
  · rw [he]; exact .inr hs
  · exact .inr (.inl hs)
  · exact .inl hs
  · rw [he]
    obtain ⟨⟨_, hm⟩ | ⟨hs, _⟩ | ⟨hs, _⟩, _⟩ := afterStopping_spec { ch with watchHalt := w }
    · simp only [Channel.headMove?] at hm
      simp only [Channel.shaped, hr] at h
      split at h <;> simp_all
    · exact .inr (.inl hs)
    · exact .inl hs

/-- A halt order keeps the queue as the channel state says (R51). -/
theorem shaped_afterOrder {ch : Channel} (h : ch.shaped = true) (mode : StopMode) (byWatch : Bool) :
    (ch.afterOrder mode byWatch).shaped = true := by
  obtain ⟨_, he⟩ | ⟨hs, hq⟩ | ⟨hst, hs, hq⟩ | ⟨hr, w, he⟩ := afterOrder_cases ch mode byWatch
  · rwa [he]
  · simp [Channel.shaped, hs, hq]
  · simpa only [Channel.shaped, hs, hq, hst] using h
  · rw [he]
    obtain ⟨⟨he', _⟩ | ⟨hs, hq⟩ | ⟨hs, m, behind, _, hq⟩, _⟩ := afterStopping_spec { ch with watchHalt := w }
    · rw [he']; exact h
    · simp [Channel.shaped, hs, hq]
    · simp [Channel.shaped, hs, hq]

/-- A halt order leaves no more entries than there were. -/
theorem length_afterOrder (ch : Channel) (mode : StopMode) (byWatch : Bool) :
    (ch.afterOrder mode byWatch).queue.length ≤ ch.queue.length := by
  obtain ⟨_, he⟩ | ⟨_, hq⟩ | ⟨_, _, hq⟩ | ⟨_, w, he⟩ := afterOrder_cases ch mode byWatch
  · rw [he]
  · rw [hq]; exact Nat.zero_le _
  · rw [hq]
  · rw [he]
    obtain ⟨⟨he', _⟩ | ⟨_, hq⟩ | ⟨_, m, behind, hq, hq'⟩, _⟩ := afterStopping_spec { ch with watchHalt := w }
    · rw [he']
    · rw [hq]; exact Nat.zero_le _
    · rw [hq', show ch.queue = _ from hq]; simp

/-- After an order that no watch gave, a DECEL order finds nothing left to do, and so does the same order again (R53). -/
theorem afterOrder_again (ch : Channel) (mode again : StopMode) (h : again = mode ∨ again = .decel) :
    (ch.afterOrder mode false).afterOrder again false = ch.afterOrder mode false := by
  obtain ⟨hs, he⟩ | ⟨hs, _⟩ | ⟨hst, hs, _⟩ | ⟨hr, _⟩ := afterOrder_cases ch mode false
  · rw [he, afterOrder_of_held hs]
  · exact afterOrder_of_held (.inl hs) _ _
  · have hmode : mode ≠ .abrupt := by
      rintro rfl
      simp [Channel.afterOrder, hst, (afterHeld_spec _ _).1] at hs
    have hagain : again ≠ .abrupt := by rcases h with rfl | rfl <;> simp_all
    simp [Channel.afterOrder, hst, hmode, hagain]
  · by_cases hmode : mode = .abrupt
    · have hheld : (ch.afterOrder mode false).state = .held := by
        simp [Channel.afterOrder, hr, hmode, (afterHeld_spec _ _).1]
      exact afterOrder_of_held (.inl hheld) _ _
    · have hagain : again ≠ .abrupt := by rcases h with rfl | rfl <;> simp_all
      have he : ch.afterOrder mode false = ch.afterStopping := by simp [Channel.afterOrder, hr, hmode]
      rw [he]
      obtain ⟨⟨he', _⟩ | ⟨hs, _⟩ | ⟨hs, _⟩, _⟩ := afterStopping_spec ch
      · rw [he']
        simp [Channel.afterOrder, hr, hagain, he']
      · exact afterOrder_of_held (.inl hs) _ _
      · simp [Channel.afterOrder, hs, hagain]

end Sys2Proof.Machine
end

section
/-! What one step's signals lead to: channels move by halt orders and by leaving their MARKERs, the slot table stays sound, and the
rest is as `MotionFrame` says. -/

namespace Sys2Proof.Machine

/-! ### Actions on channels, one after another -/

/-- Actions on several channels, once each: every one of them is as its own action leaves it, and no slot changes. -/
theorem eachAct_runsOn {f : Chan → State → Act} {after : Nat → Chan → Channel → Channel}
    (h : ∀ c s, RunsOn c s (f c s).1 (after s.now c (s.chan c))) {l : List Chan} (hl : l.Nodup) (s : State) :
    (∀ d, (eachAct l f s).1.chan d = if d ∈ l then after s.now d (s.chan d) else s.chan d)
      ∧ (eachAct l f s).1 = { s with
        chans := (eachAct l f s).1.chans, watches := (eachAct l f s).1.watches, aux := (eachAct l f s).1.aux
        posting := (eachAct l f s).1.posting } := by
  induction l generalizing s with
  | nil => exact ⟨fun d => by simp, rfl⟩
  | cons c rest ih =>
    obtain ⟨hc, hr⟩ := List.nodup_cons.mp hl
    have hs := h c s
    obtain ⟨hchan, hframe⟩ := ih hr (f c s).1
    rw [eachAct_cons]
    refine ⟨fun d => ?_, ?_⟩
    · rw [hchan, hs.now]
      by_cases hd : d = c
      · subst hd
        simp [hc, hs.chan]
      · simp [hd, hs.others d hd]
    · simp only
      rw [hframe, hs.frame]

theorem haltOrder_runsOn (mode : StopMode) (byWatch : Bool) (c : Chan) (s : State) :
    RunsOn c s (haltOrder c mode byWatch s).1 ((s.chan c).afterOrder mode byWatch) :=
  .of_onChannel (haltOrder_on c mode byWatch s)

theorem runTail_runsOn (c : Chan) (s : State) :
    RunsOn c s (runHead c (s.chan c).queue.tail s).1 ((s.chan c).afterRun s.now (s.chan c).queue.tail) :=
  runHead_runsOn c _ s

/-- Several channels at rest leave their heads for the entries behind them. -/
theorem runTails_runsOn {l : List Chan} (hl : l.Nodup) (s : State) :
    (∀ d, (eachAct l (fun c u => runHead c (u.chan c).queue.tail u) s).1.chan d
        = if d ∈ l then (s.chan d).afterRun s.now (s.chan d).queue.tail else s.chan d)
      ∧ (eachAct l (fun c u => runHead c (u.chan c).queue.tail u) s).1 = { s with
        chans := (eachAct l (fun c u => runHead c (u.chan c).queue.tail u) s).1.chans
        watches := (eachAct l (fun c u => runHead c (u.chan c).queue.tail u) s).1.watches
        aux := (eachAct l (fun c u => runHead c (u.chan c).queue.tail u) s).1.aux
        posting := (eachAct l (fun c u => runHead c (u.chan c).queue.tail u) s).1.posting } :=
  eachAct_runsOn (after := fun now _ ch => ch.afterRun now ch.queue.tail) (fun c u => runTail_runsOn c u) hl s

/-! ### The slot table -/

/-- The fields that the soundness of the slot table speaks of. -/
def State.slotFields (s : State) := (s.slots, s.openList, s.xsyncLow)

theorem slotsSound_congr {s t : State} (h : t.slotFields = s.slotFields) (hs : s.slotsSound) : t.slotsSound := by
  simp only [State.slotFields, Prod.mk.injEq] at h
  obtain ⟨h1, h2, h3⟩ := h
  rw [State.slotsSound, h1, h2, h3]
  exact hs

theorem shrinks_congr {s t : State} (h : t.slotFields = s.slotFields) : t.openList ⊆ s.openList := by
  simp only [State.slotFields, Prod.mk.injEq] at h
  rw [h.2.1]
  exact List.Subset.refl _

theorem RunsOn.slotFields_eq {c : Chan} {s t : State} {x : Channel} (h : RunsOn c s t x) : t.slotFields = s.slotFields := by
  obtain ⟨h1, h2, h3, _⟩ := h.slotFields
  simp [State.slotFields, h1, h2, h3]

/-- A slot that becomes FREE leaves the table sound (R73, R80, R82, R88). -/
theorem slotsSound_freeSlot {s : State} (h : s.slotsSound) {i : SlotIx} {sl : Slot} (hi : s.slots[i] = some sl) :
    (freeSlot i sl s).slotsSound := by
  obtain ⟨hnodup, hmem, hsound, hone, hlow⟩ := h
  have hget : ∀ j : SlotIx, (freeSlot i sl s).slots[j] = if j = i then none else s.slots[j] :=
    fun j => State.slots_setSlot_get s i j none
  have hsome : ∀ (j : SlotIx) (x : Slot), (freeSlot i sl s).slots[j] = some x → j ≠ i ∧ s.slots[j] = some x := by
    intro j x hx
    rw [hget] at hx
    split at hx
    · cases hx
    · exact ⟨by assumption, hx⟩
  refine ⟨hnodup.erase i, fun j => ?_, fun j x hx => hsound j x (hsome j x hx).2, fun j k a b ha hb => ?_, ?_⟩
  · rw [hget, show (freeSlot i sl s).openList = s.openList.erase i from rfl, hnodup.mem_erase_iff, hmem]
    by_cases hj : j = i <;> simp [hj]
  · exact hone j k a b (hsome j a ha).2 (hsome k b hb).2
  · show (if sl.external then false else s.xsyncLow) = true ↔ _
    cases he : sl.external with
    | true =>
      simp only [if_true, Bool.false_eq_true, false_iff, not_exists]
      rintro j x ⟨hx, hex, _⟩
      obtain ⟨hj, hx'⟩ := hsome j x hx
      exact hj (hone j i x sl hx' hi hex he)
    | false =>
      simp only [Bool.false_eq_true, if_false]
      rw [hlow]
      constructor
      · rintro ⟨j, x, hx, hex, harr⟩
        refine ⟨j, x, ?_, hex, harr⟩
        have hj : j ≠ i := by
          rintro rfl
          rw [hi] at hx
          cases hx
          rw [he] at hex
          cases hex
        rw [hget, if_neg hj, hx]
      · rintro ⟨j, x, hx, hex, harr⟩
        exact ⟨j, x, (hsome j x hx).2, hex, harr⟩

/-- A slot replaced by a sound one, with XSYNC driven low exactly while an EXTERNAL slot's arrived set is incomplete, leaves the
table sound (R73, R78, R88, R89). -/
theorem slotsSound_replace {s : State} (h : s.slotsSound) {i : SlotIx} {sl sl' : Slot} (hi : s.slots[i] = some sl)
    (hs : sl'.sound) (he : sl'.external = sl.external) {low : Bool} {run : Option Nat}
    (hlow' : low = true ↔ if sl.external then sl'.arrived ≠ sl'.members else s.xsyncLow = true) :
    ({ s.setSlot i (some sl') with xsyncLow := low, xsyncRun := run } : State).slotsSound := by
  obtain ⟨hnodup, hmem, hsound, hone, hlow⟩ := h
  have hget : ∀ j : SlotIx, (s.setSlot i (some sl')).slots[j] = if j = i then some sl' else s.slots[j] :=
    fun j => State.slots_setSlot_get s i j (some sl')
  have hwas : ∀ (j : SlotIx) (x : Slot), (s.setSlot i (some sl')).slots[j] = some x →
      ∃ y, s.slots[j] = some y ∧ x.external = y.external := by
    intro j x hx
    rw [hget] at hx
    split at hx
    · rename_i hj; subst hj; cases hx; exact ⟨sl, hi, he⟩
    · exact ⟨x, hx, rfl⟩
  refine ⟨hnodup, fun j => ?_, fun j x hx => ?_, fun j k a b ha hb hae hbe => ?_, ?_⟩
  · show j ∈ s.openList ↔ ((s.setSlot i (some sl')).slots[j]).isSome = true
    rw [hget, hmem]
    by_cases hj : j = i
    · subst hj; simp [hi]
    · simp [hj]
  · have hx' : (s.setSlot i (some sl')).slots[j] = some x := hx
    rw [hget] at hx'
    split at hx'
    · cases hx'; exact hs
    · exact hsound j x hx'
  · obtain ⟨a', ha', hea⟩ := hwas j a ha
    obtain ⟨b', hb', heb⟩ := hwas k b hb
    exact hone j k a' b' ha' hb' (hea ▸ hae) (heb ▸ hbe)
  · show low = true ↔ ∃ (j : SlotIx) (x : Slot), (s.setSlot i (some sl')).slots[j] = some x ∧ _
    rw [hlow']
    cases hext : sl.external with
    | true =>
      simp only [if_true]
      constructor
      · exact fun harr => ⟨i, sl', by rw [hget, if_pos rfl], he.trans hext, harr⟩
      · rintro ⟨j, x, hx, hex, harr⟩
        obtain ⟨y, hy, hxy⟩ := hwas j x hx
        have hj := hone j i y sl hy hi (hxy ▸ hex) hext
        subst hj
        rw [hget, if_pos rfl] at hx
        cases hx
        exact harr
    | false =>
      simp only [Bool.false_eq_true, if_false]
      rw [hlow]
      constructor
      · rintro ⟨j, x, hx, hex, harr⟩
        refine ⟨j, x, ?_, hex, harr⟩
        have hj : j ≠ i := by
          rintro rfl
          rw [hi] at hx
          cases hx
          rw [hext] at hex
          cases hex
        rw [hget, if_neg hj, hx]
      · rintro ⟨j, x, hx, hex, harr⟩
        have hj : j ≠ i := by
          rintro rfl
          rw [hget, if_pos rfl] at hx
          cases hx
          rw [he, hext] at hex
          cases hex
        rw [hget, if_neg hj] at hx
        exact ⟨j, x, hx, hex, harr⟩

/-- The arrived set of a slot after an arrival of a member stays within the members (R78). -/
theorem arrived_subset {sl : Slot} (h : sl.sound) {c : Chan} (hc : hasChan sl.members c = true) :
    (sl.arrived ||| chanBit c) &&& sl.members = sl.arrived ||| chanBit c := by
  have hand (a b : Mask) (d : Chan) : hasChan (a &&& b) d = (hasChan a d && hasChan b d) := by simp [hasChan]
  have hsub : ∀ d, hasChan sl.arrived d = true → hasChan sl.members d = true := by
    intro d hd
    have := congrArg (hasChan · d) h.2.1
    simp only [hand, hd, Bool.true_and] at this
    exact this
  refine mask_ext fun d => ?_
  rw [hand, hasChan_or, hasChan_chanBit]
  by_cases hd : d = c
  · subst hd; simp [hc]
  · have : (d == c) = false := by simpa using hd
    cases ha : hasChan sl.arrived d with
    | true => simp [hsub d ha]
    | false => simp [this]

/-- A sound slot of which some member has not arrived is not SYNCING (R89). -/
theorem not_syncing_of_missing {sl : Slot} (h : sl.sound) {c : Chan} (hc : hasChan sl.members c = true)
    (ha : hasChan sl.arrived c = false) : sl.state ≠ .syncing ∧ sl.arrived ≠ sl.members := by
  have hne : sl.arrived ≠ sl.members := by
    intro he
    rw [he, hc] at ha
    cases ha
  exact ⟨fun hs => hne (h.2.2.1.mp hs), hne⟩

/-! ### The steps that signals lead to -/

/-- One move of a channel by a step's signals: a halt order, or, from WAITING, the entries behind its MARKER (R53, R80). -/
inductive ChanStep (now : Nat) (ch : Channel) : Channel → Prop
  | order (mode : StopMode) (byWatch : Bool) : ChanStep now ch (ch.afterOrder mode byWatch)
  | leave (h : ch.state = .waiting) : ChanStep now ch (ch.afterRun now ch.queue.tail)

/-- The moves of a channel by a step's signals, one after another. -/
abbrev Moves (now : Nat) : Channel → Channel → Prop := Relation.ReflTransGen (ChanStep now)

/-- What a step's signals change: channels move, the slot table stays sound, and the rest is as `MotionFrame` says. -/
structure SettleStep (s t : State) : Prop extends MotionFrame s t where
  moves : ∀ c, Moves s.now (s.chan c) (t.chan c)
  slots : s.slotsSound → t.slotsSound
  shrinks : t.openList ⊆ s.openList

theorem MotionFrame.now {s t : State} (h : MotionFrame s t) : t.now = s.now := by
  have := congrArg State.now h.still
  exact this

namespace SettleStep

variable {s t u : State}

protected theorem refl (s : State) : SettleStep s s := ⟨.refl s, fun _ => .refl, id, List.Subset.refl _⟩

protected theorem trans (h : SettleStep s t) (k : SettleStep t u) : SettleStep s u where
  toMotionFrame := h.toMotionFrame.trans k.toMotionFrame
  moves c := (h.moves c).trans (by rw [← h.now]; exact k.moves c)
  slots := k.slots ∘ h.slots
  shrinks := List.Subset.trans k.shrinks h.shrinks

/-- An update of watches, the AUX latch and the posting queue. -/
theorem of_frame (h : MotionFrame s t) (hc : t.chans = s.chans) (hs : t.slotFields = s.slotFields) : SettleStep s t :=
  ⟨h, fun c => by rw [State.chan, State.chan, hc], slotsSound_congr hs, shrinks_congr hs⟩

theorem each {α : Type} (l : List α) (f : α → State → Act) (h : ∀ x s, SettleStep s (f x s).1) (s : State) :
    SettleStep s (eachAct l f s).1 := by
  induction l generalizing s with
  | nil => exact .refl s
  | cons x rest ih => rw [eachAct_cons]; exact (h x s).trans (ih _)

theorem haltOrder (c : Chan) (mode : StopMode) (byWatch : Bool) (s : State) :
    SettleStep s (haltOrder c mode byWatch s).1 := by
  have h := haltOrder_runsOn mode byWatch c s
  refine ⟨haltOrder_frame c mode byWatch s, fun d => ?_, slotsSound_congr h.slotFields_eq,
    shrinks_congr h.slotFields_eq⟩
  by_cases hd : d = c
  · subst hd; rw [h.chan]; exact .single (.order mode byWatch)
  · rw [h.others d hd]

theorem haltMask (m : Mask) (mode : StopMode) (byWatch : Bool) (s : State) : SettleStep s (haltMask m mode byWatch s).1 :=
  each _ _ (fun c => haltOrder c mode byWatch) s

theorem failSlot (i : SlotIx) (status : Status) (withdrawn : Option Chan) (s : State) :
    SettleStep s (failSlot i status withdrawn s).1 := by
  unfold Machine.failSlot
  split
  · exact .refl s
  · rename_i sl hi
    refine SettleStep.trans ?_ (each _ _ (fun c => haltOrder c _ _) _)
    have hfree : SettleStep s (freeSlot i sl s) :=
      ⟨freeSlot_frame i sl s, fun _ => .refl, fun h => slotsSound_freeSlot h hi, List.erase_subset⟩
    exact hfree.trans (.of_frame (.post _ _ rfl) rfl rfl)

/-- What a release leaves of the slots is what freeing the slot leaves (R80). -/
theorem slotFields_releaseSlot {i : SlotIx} {sl : Slot} (hi : s.slots[i] = some sl) :
    (releaseSlot i s).1.slotFields = (freeSlot i sl s).slotFields := by
  have hnodup := (nodup_chansOf sl.members).filter (waitsAt s i)
  have h := (runTails_runsOn hnodup (freeSlot i sl s)).2
  unfold releaseSlot
  rw [hi]
  simp only
  rw [h]
  rfl

/-- A release moves the members that wait at their MARKER of the slot, each to what its next entries leave (R80). -/
theorem moves_releaseSlot (i : SlotIx) (s : State) (d : Chan) :
    Moves s.now (s.chan d) ((releaseSlot i s).1.chan d) := by
  unfold releaseSlot
  split
  · exact .refl
  · rename_i sl hi
    have hnodup := (nodup_chansOf sl.members).filter (waitsAt s i)
    have h := (runTails_runsOn hnodup (freeSlot i sl s)).1 d
    simp only [State.chan_post]
    rw [h]
    split
    · rename_i hd
      have hw : (s.chan d).state = .waiting := by
        have := (List.mem_filter.mp hd).2
        simp only [waitsAt, Bool.and_eq_true, beq_iff_eq] at this
        exact this.1
      exact .single (.leave hw)
    · exact .refl

theorem releaseSlot (i : SlotIx) (s : State) : SettleStep s (releaseSlot i s).1 := by
  cases hi : s.slots[i] with
  | none =>
    have : Machine.releaseSlot i s = (s, []) := by unfold Machine.releaseSlot; rw [hi]
    rw [this]
    exact .refl s
  | some sl =>
    have hf := slotFields_releaseSlot hi
    exact ⟨releaseSlot_frame i s, moves_releaseSlot i s, fun h => slotsSound_congr hf (slotsSound_freeSlot h hi),
      List.Subset.trans (shrinks_congr hf) List.erase_subset⟩

theorem takeArrival (c : Chan) (i : SlotIx) (s : State) : SettleStep s (takeArrival c i s).1 := by
  refine ⟨takeArrival_frame c i s, fun d => ?_, fun h => ?_, ?_⟩
  · unfold Machine.takeArrival
    split
    · exact .refl
    · split
      · simp only
        split
        · split
          · exact .refl
          · exact moves_releaseSlot i (s.setSlot i _) d
        · exact .refl
      · exact .refl
  · unfold Machine.takeArrival
    split
    · exact h
    · rename_i sl hi
      split
      · rename_i hnew
        simp only [Bool.and_eq_true, Bool.not_eq_true'] at hnew
        obtain ⟨hmember, hmissing⟩ := hnew
        have hsl := h.2.2.1 i sl hi
        obtain ⟨hstate, hincomplete⟩ := not_syncing_of_missing hsl hmember hmissing
        have hlow : s.xsyncLow = true ↔ if sl.external then True else s.xsyncLow = true := by
          cases he : sl.external with
          | true =>
            simp only [if_true, iff_true]
            exact h.2.2.2.2.mpr ⟨i, sl, hi, he, hincomplete⟩
          | false => simp
        simp only
        split
        · rename_i hfull
          split
          · rename_i hext
            have hsound : Slot.sound { sl.arrive c s.now with state := .syncing } :=
              ⟨hsl.1, arrived_subset hsl hmember, iff_of_true rfl hfull, fun _ => hext⟩
            refine slotsSound_replace h hi hsound rfl ?_
            · have he : sl.external = true := hext
              simp only [he, if_true, Bool.false_eq_true, false_iff, ne_eq, not_not]
              exact hfull
          · have hget : (s.setSlot i (some (sl.arrive c s.now))).slots[i] = some (sl.arrive c s.now) := by
              rw [State.slots_setSlot_get, if_pos rfl]
            refine slotsSound_congr (slotFields_releaseSlot hget) ?_
            refine slotsSound_congr ?_ (slotsSound_freeSlot h hi)
            cases he : sl.external <;> simp [State.slotFields, freeSlot, State.setSlot, Slot.arrive, he]
        · rename_i hpart
          have hgathering : (sl.arrive c s.now).state ≠ .syncing := by
            simp only [Slot.arrive]
            split <;> simp [hstate]
          have hsound : (sl.arrive c s.now).sound :=
            ⟨hsl.1, arrived_subset hsl hmember, iff_of_false hgathering hpart, fun hs => absurd hs hgathering⟩
          refine slotsSound_congr rfl (slotsSound_replace (low := s.xsyncLow) (run := s.xsyncRun) h hi hsound rfl ?_)
          rw [hlow]
          cases sl.external
          · simp
          · simpa using hpart
      · exact h
  · unfold Machine.takeArrival
    split
    · exact List.Subset.refl _
    · split
      · simp only
        split
        · split
          · exact List.Subset.refl _
          · exact (releaseSlot i (s.setSlot i _)).shrinks
        · exact List.Subset.refl _
      · exact List.Subset.refl _

theorem takeWithdrawal (c : Chan) (i : SlotIx) (s : State) : SettleStep s (takeWithdrawal c i s).1 := by
  unfold Machine.takeWithdrawal
  split
  · exact .refl s
  · split
    · exact failSlot _ _ _ _
    · exact .refl s

theorem rearmCooling (c : Chan) (position : Word) (s : State) : SettleStep s (rearmCooling c position s) := by
  have h := (rearmCooling_rearmed c position s).2
  exact .of_frame (rearmCooling_frame c position s) (by rw [h]) (by rw [h]; rfl)

theorem armWatch (x : Option WatchIx) (s : State) : SettleStep s (armWatch x s) := by
  refine .of_frame (armWatch_frame x s) ?_ ?_
  all_goals
    unfold Machine.armWatch
    split
    · rfl
    · split
      · split <;> rfl
      · rfl

theorem fireWatch (up : Bool) (i : WatchIx) (s : State) : SettleStep s (fireWatch up i s).1 := by
  unfold Machine.fireWatch
  split
  · exact .refl s
  · rename_i w _
    simp only
    refine SettleStep.trans ?_ (armWatch _ _)
    refine SettleStep.trans ?_ (SettleStep.trans (haltMask _ _ _ _) (haltMask _ _ _ _))
    have hset (w' : Watch) : SettleStep s (s.setWatch i (some w')) := .of_frame (setWatch_frame _ _ _) rfl rfl
    have haux (w' : Watch) (u : State) : SettleStep u (watchAux w' u) := by
      refine .of_frame (watchAux_frame w' u) ?_ ?_ <;> unfold watchAux <;> split <;> rfl
    have hnotice (u : State) (x : Cpl) (hx : x.notice = true) : SettleStep u (u.postNotice x) := by
      refine .of_frame (.postNotice u x hx) ?_ ?_ <;> unfold State.postNotice <;> split <;> rfl
    split
    · exact ((hset _).trans (haux _ _)).trans (hnotice _ _ rfl)
    · exact (hset _).trans (haux _ _)

theorem takeStep (c : Chan) (position : Word) (up : Bool) (s : State) : SettleStep s (takeStep c position up s).1 := by
  unfold Machine.takeStep
  split
  · exact (rearmCooling _ _ _).trans (each _ _ (fireWatch up) _)
  · exact .refl s

theorem takeEdge (i : CapIx) (rise : Bool) (s : State) : SettleStep s (takeEdge i rise s).1 := by
  unfold Machine.takeEdge
  split
  · exact each _ _ (fireWatch rise) _
  · exact .refl s

theorem takeSignal (sig : Signal) (s : State) : SettleStep s (takeSignal sig s).1 := by
  cases sig with
  | arrive c i => exact takeArrival c i s
  | withdraw c i => exact takeWithdrawal c i s
  | stepped c p up => exact takeStep c p up s

theorem settleRounds (n : Nat) (sigs : List Signal) (s : State) : SettleStep s (settleRounds n sigs s) := by
  induction n generalizing sigs s with
  | zero => exact .refl s
  | succ n ih =>
    cases sigs with
    | nil => exact .refl s
    | cons sig rest => exact (each _ _ takeSignal s).trans (ih _ _)

/-- Every signal that an action sends is taken by such steps. -/
theorem settle (a : Act) : SettleStep a.1 a.settle := settleRounds 20 a.2 a.1

end SettleStep

/-! ### What the moves keep of a channel -/

namespace Moves

variable {now : Nat} {ch ch' : Channel}

/-- A HELD or DISABLED channel does not move. -/
theorem eq_of_held (h : Moves now ch ch') (hs : ch.state = .held ∨ ch.state = .disabled) : ch' = ch := by
  induction h with
  | refl => rfl
  | tail _ hstep ih =>
    subst ih
    cases hstep with
    | order mode byWatch => exact afterOrder_of_held hs _ _
    | leave hw => rcases hs with hs | hs <;> rw [hs] at hw <;> cases hw

/-- A stopped channel stays stopped. -/
theorem stopped (h : Moves now ch ch') (hs : ch.stopped) : ch'.stopped := by
  induction h with
  | refl => exact hs
  | tail _ hstep ih =>
    cases hstep with
    | order mode byWatch => exact stopped_afterOrder ih _ _
    | leave hw => rcases ih with ih | ih | ih <;> rw [ih] at hw <;> cases hw

/-- The queue stays as the channel state says (R51). -/
theorem shaped (h : Moves now ch ch') (hs : ch.shaped = true) : ch'.shaped = true := by
  induction h with
  | refl => exact hs
  | tail _ hstep ih =>
    cases hstep with
    | order mode byWatch => exact shaped_afterOrder ih _ _
    | leave hw => exact shaped_afterRun _ _ _

/-- The queue grows no longer. -/
theorem length (h : Moves now ch ch') : ch'.queue.length ≤ ch.queue.length := by
  induction h with
  | refl => exact le_rfl
  | tail _ hstep ih =>
    refine le_trans ?_ ih
    cases hstep with
    | order mode byWatch => exact length_afterOrder _ _ _
    | leave hw => exact (length_afterRun _ _ _).trans (by simp)

end Moves

end Sys2Proof.Machine
end

section
/-! What one command does to each channel: one change of its own, then the moves of its signals. The invariants of queues, channel
states, the slot table and the outputs rest on it (O8, O9, O10, O12, O13). -/

namespace Sys2Proof.Machine

/-! ### One channel through a command -/

/-- A channel as it stands outside service: no motion and STEP low (R170). -/
def Channel.lies (ch : Channel) : Prop := ch.state ∈ [ChanState.disabled, .idle, .held] ∧ ch.pgn.pulseEnd = none

/-- A channel as a drain or a failure leaves it (R158, R161). -/
def Channel.calm (ch : Channel) : Prop := ch.state ∈ [ChanState.disabled, .idle, .stopping, .held]

theorem Channel.calm_of_stopped {ch : Channel} (h : ch.stopped) : ch.calm := by
  rcases h with h | h | h <;> simp [Channel.calm, h]

/-- A halt order leaves a channel lying still as one (R53). -/
theorem lies_afterOrder {ch : Channel} (h : ch.lies) (mode : StopMode) (byWatch : Bool) : (ch.afterOrder mode byWatch).lies := by
  obtain ⟨hst, hp⟩ := h
  refine ⟨?_, (afterOrder_keeps ch mode byWatch).1.trans hp⟩
  obtain ⟨_, he⟩ | ⟨hs, _⟩ | ⟨hs, _⟩ | ⟨hs, _⟩ := afterOrder_cases ch mode byWatch
  · rwa [he]
  · simp [hs]
  · simp [hs] at hst
  · simp [hs] at hst

theorem calm_afterOrder {ch : Channel} (h : ch.calm) (mode : StopMode) (byWatch : Bool) : (ch.afterOrder mode byWatch).calm := by
  obtain ⟨_, he⟩ | ⟨hs, _⟩ | ⟨_, hs, _⟩ | ⟨hs, _⟩ := afterOrder_cases ch mode byWatch
  · rwa [he]
  · simp [Channel.calm, hs]
  · simp [Channel.calm, hs]
  · simp [Channel.calm, hs] at h

/-- What moves by order and by leaving a MARKER keep, where no channel of the kind waits. -/
theorem Moves.keeps {p : Channel → Prop} (order : ∀ ch mode byWatch, p ch → p (ch.afterOrder mode byWatch))
    (waits : ∀ ch, p ch → ch.state ≠ .waiting) {now : Nat} {ch ch' : Channel} (h : Moves now ch ch') (hp : p ch) : p ch' := by
  induction h with
  | refl => exact hp
  | tail _ hstep ih =>
    cases hstep with
    | order mode byWatch => exact order _ _ _ ih
    | leave hw => exact absurd hw (waits _ ih)

theorem Moves.lies {now : Nat} {ch ch' : Channel} (h : Moves now ch ch') (hp : ch.lies) : ch'.lies :=
  Moves.keeps (p := Channel.lies) (fun _ m b hl => lies_afterOrder hl m b) (fun _ hl hw => by simp [Channel.lies, hw] at hl) h hp

theorem Moves.calm {now : Nat} {ch ch' : Channel} (h : Moves now ch ch') (hp : ch.calm) : ch'.calm :=
  Moves.keeps (p := Channel.calm) (fun _ m b hl => calm_afterOrder hl m b) (fun _ hl hw => by simp [Channel.calm, hw] at hl) h hp

/-- A channel as an entry joins the tail of its open queue; it runs at once on an IDLE channel (R5). -/
def Channel.afterEntry (ch : Channel) (now : Nat) (e : Entry) : Channel :=
  if ch.state = .idle then ch.afterRun now (ch.queue ++ [e]) else { ch with queue := ch.queue ++ [e] }

theorem appendEntry_runsOn (e : Entry) (c : Chan) (s : State) :
    RunsOn c s (appendEntry c e s).1 ((s.chan c).afterEntry s.now e) := by
  unfold appendEntry Channel.afterEntry
  simp only
  split
  · exact runHead_runsOn c _ s
  · exact .setChan _ _ _

/-- What a command keeps of one channel, in a part state and with the ESTOP latch as it finds them. -/
structure ChanChange (part : PartState) (latch : Bool) (ch ch' : Channel) : Prop where
  bounded : ch.queue.length ≤ Config.queueDepth → ch'.queue.length ≤ Config.queueDepth
  shaped : ch.shaped = true → ch'.shaped = true
  holds : latch = true → ch.state = .held ∨ ch.state = .disabled → ch'.state = .held ∨ ch'.state = .disabled
  halts : ch.comingToRest = true → ch'.stopped
  lies : part ≠ .running → ch.lies → ch'.lies
  calm : part ≠ .running → ch.calm → ch'.calm

theorem stopped_of_comingToRest {ch : Channel} (h : ch.comingToRest = true) : ch.stopped := by
  cases hs : ch.state <;> simp_all [Channel.comingToRest, Channel.stopped]

namespace ChanChange

variable {part : PartState} {latch : Bool} {ch mid ch' : Channel} {now : Nat}

/-- The signals that follow the command's own change. -/
theorem moves (h : ChanChange part latch ch mid) (k : Moves now mid ch') : ChanChange part latch ch ch' where
  bounded hb := k.length.trans (h.bounded hb)
  shaped hs := k.shaped (h.shaped hs)
  holds hl hs := by rw [k.eq_of_held (h.holds hl hs)]; exact h.holds hl hs
  halts hc := k.stopped (h.halts hc)
  lies hp hl := k.lies (h.lies hp hl)
  calm hp hl := k.calm (h.calm hp hl)

/-- A change that leaves the state and the queue, and STEP low where it was. -/
theorem of_state (hs : ch'.state = ch.state) (hq : ch'.queue = ch.queue)
    (hp : ch.lies → ch'.pgn.pulseEnd = none) : ChanChange part latch ch ch' where
  bounded := by rw [hq]; exact id
  shaped := by simp only [Channel.shaped, hs, hq]; exact id
  holds _ := by rw [hs]; exact id
  halts hc := by simpa only [Channel.stopped, hs] using stopped_of_comingToRest hc
  lies _ hl := ⟨by rw [hs]; exact hl.1, hp hl⟩
  calm _ hc := by rw [Channel.calm, hs]; exact hc

protected theorem refl : ChanChange part latch ch ch := of_state rfl rfl fun h => h.2

/-- A change of a channel in motion or whose head times it, to a queue as its state says. -/
theorem of_active (h : ch.state = .running ∨ ch.state = .dwelling) (hs : ch'.shaped = true)
    (hl : ch'.queue.length ≤ ch.queue.length) : ChanChange part latch ch ch' where
  bounded hb := hl.trans hb
  shaped _ := hs
  holds _ hh := by rcases h with h | h <;> simp [h] at hh
  halts hc := by rcases h with h | h <;> simp [Channel.comingToRest, h] at hc
  lies _ hh := by rcases h with h | h <;> simp [Channel.lies, h] at hh
  calm _ hh := by rcases h with h | h <;> simp [Channel.calm, h] at hh

/-- A channel that becomes HELD with its pulse as it was. -/
theorem of_held (hs : ch'.state = .held) (hq : ch'.queue = []) (hp : ch'.pgn.pulseEnd = ch.pgn.pulseEnd) :
    ChanChange part latch ch ch' where
  bounded _ := by rw [hq]; exact Nat.zero_le _
  shaped _ := by simp [Channel.shaped, hs, hq]
  holds _ _ := .inl hs
  halts _ := .inr (.inl hs)
  lies _ hl := ⟨by simp [hs], hp.trans hl.2⟩
  calm _ _ := by simp [Channel.calm, hs]

theorem of_entry (h : ch.takesEntry) (now : Nat) (e : Entry) : ChanChange .running latch ch (ch.afterEntry now e) := by
  obtain ⟨hopen, hroom⟩ := h
  have hlen : (ch.afterEntry now e).queue.length ≤ Config.queueDepth := by
    have : (ch.queue ++ [e]).length ≤ Config.queueDepth := by simp; omega
    unfold Channel.afterEntry
    split
    · exact (length_afterRun _ _ _).trans this
    · exact this
  have hclosed : ¬ch.stopped := by
    rintro (hs | hs | hs) <;> simp [Channel.isOpen, hs] at hopen
  refine ⟨fun _ => hlen, fun hs => ?_, fun _ hs => absurd (.inr hs) hclosed,
    fun hc => absurd (stopped_of_comingToRest hc) hclosed, fun hp => absurd rfl hp, fun hp => absurd rfl hp⟩
  unfold Channel.afterEntry
  split
  · exact shaped_afterRun _ _ _
  · rename_i hidle
    have hact : ch.state = .running ∨ ch.state = .dwelling ∨ ch.state = .waiting := by
      cases hst : ch.state <;> simp_all [Channel.isOpen]
    cases hq : ch.queue with
    | nil => rcases hact with ha | ha | ha <;> simp [Channel.shaped, ha, hq] at hs
    | cons x rest =>
      rcases hact with ha | ha | ha <;> cases x <;> simp [Channel.shaped, ha, hq] at hs ⊢

/-- A HELD channel at rest becomes IDLE, with the latch clear (R61). -/
theorem of_resume (h : resumable ch = true) : ChanChange part false ch { ch with state := .idle } := by
  simp only [resumable, Bool.and_eq_true, beq_iff_eq, Channel.atRest] at h
  obtain ⟨hs, hr⟩ := h
  simp only [hs] at hr
  refine ⟨id, fun hsh => ?_, nofun, fun hc => ?_, fun _ hl => ⟨by simp, hl.2⟩, fun _ _ => by simp [Channel.calm]⟩
  · cases hq : ch.queue <;> simp_all [Channel.shaped]
  · have hn : ch.pgn.pulseEnd = none := by simpa using hr
    simp [Channel.comingToRest, hs, hn] at hc

/-- An accepted SET_CHANNEL (R62, R63). -/
theorem of_configure (h : configurable ch = true) (cfg : ChanConfig) :
    ChanChange part latch ch (configure ch cfg latch) := by
  have hst : ch.state = .disabled ∨ ch.state = .idle ∨ (ch.state = .held ∧ ch.pgn.pulseEnd = none) := by
    cases hs : ch.state <;> simp_all [configurable, Channel.atRest]
  have hnew : enabledState ch.state cfg.enable latch ∈ [ChanState.disabled, .idle, .held] := by
    unfold enabledState
    rcases hst with hs | hs | ⟨hs, _⟩ <;> rw [hs] <;> cases cfg.enable <;> cases latch <;> decide
  refine ⟨id, fun hsh => ?_, fun hl hh => ?_, fun hc => ?_, fun _ hl => ⟨hnew, hl.2⟩, fun _ _ => ?_⟩
  · have hq : ch.queue = [] := by
      rcases hst with hs | hs | ⟨hs, _⟩ <;> cases hq : ch.queue <;> simp_all [Channel.shaped]
    show Channel.shaped (configure ch cfg latch) = true
    have : (configure ch cfg latch).queue = [] := hq
    simp only [Channel.shaped, this]
    revert hnew
    show (configure ch cfg latch).state ∈ _ → _
    cases (configure ch cfg latch).state <;> simp
  · show enabledState ch.state cfg.enable latch = .held ∨ enabledState ch.state cfg.enable latch = .disabled
    subst hl
    unfold enabledState
    rcases hh with hh | hh <;> rw [hh] <;> cases cfg.enable <;> decide
  · rcases hst with hs | hs | ⟨hs, hp⟩ <;> simp [Channel.comingToRest, hs] at hc
    simp [hp] at hc
  · show enabledState ch.state cfg.enable latch ∈ _
    revert hnew
    cases enabledState ch.state cfg.enable latch <;> decide

end ChanChange

/-! ### The part through a command -/

/-- What a command that leaves the part state and the latch does: each channel one change and the moves of its signals, the slot
table sound, no slot opened outside RUNNING, and the pending HALTs as they were. -/
structure Commanded (s t : State) : Prop where
  reset : t.inReset = s.inReset
  part : t.part = s.part
  latch : t.estopLatch = s.estopLatch
  halts : t.halts = s.halts
  changes : ∀ c, ChanChange s.part s.estopLatch (s.chan c) (t.chan c)
  slots : s.slotsSound → t.slotsSound
  shrinks : s.part ≠ .running → t.openList ⊆ s.openList

namespace Commanded

variable {s t u : State}

/-- A command's change and the signals that follow it. -/
theorem settled (h : Commanded s t) (k : SettleStep t u) : Commanded s u := by
  have still {α : Type} (f : State → α) : f u.still = f t.still := congrArg f k.still
  have hrst : u.inReset = t.inReset := still State.inReset
  have hpart : u.part = t.part := still State.part
  have hlatch : u.estopLatch = t.estopLatch := still State.estopLatch
  have hhalts : u.halts = t.halts := still State.halts
  exact ⟨hrst.trans h.reset, hpart.trans h.part, hlatch.trans h.latch, hhalts.trans h.halts,
    fun c => (h.changes c).moves (k.moves c), k.slots ∘ h.slots, fun hp => List.Subset.trans k.shrinks (h.shrinks hp)⟩

protected theorem refl (s : State) : Commanded s s :=
  ⟨rfl, rfl, rfl, rfl, fun _ => .refl, id, fun _ => List.Subset.refl _⟩

theorem of_settled (k : SettleStep s t) : Commanded s t := (Commanded.refl s).settled k

/-- A change of channels alone, each one a change that a command makes. -/
theorem of_chans (h : t = { s with chans := t.chans, watches := t.watches, aux := t.aux, posting := t.posting })
    (hc : ∀ c, ChanChange s.part s.estopLatch (s.chan c) (t.chan c)) : Commanded s t := by
  have hf : t.slotFields = s.slotFields := by rw [h]; rfl
  exact ⟨by rw [h]; rfl, by rw [h], by rw [h], by rw [h], hc, slotsSound_congr hf, fun _ => shrinks_congr hf⟩

/-- An action on one channel. -/
theorem of_runsOn {c : Chan} {x : Channel} (h : RunsOn c s t x) (hx : ChanChange s.part s.estopLatch (s.chan c) x) :
    Commanded s t := by
  refine .of_chans h.frame fun d => ?_
  by_cases hd : d = c
  · subst hd; rw [h.chan]; exact hx
  · rw [h.others d hd]; exact .refl

theorem setChan {c : Chan} {x : Channel} (hx : ChanChange s.part s.estopLatch (s.chan c) x) : Commanded s (s.setChan c x) :=
  .of_runsOn (.setChan c s x) hx

/-- A change of none of the fields that the invariants speak of. -/
theorem quiet (h : Commanded s t) (hc : u.chans = t.chans) (hh : u.halts = t.halts) (hr : u.rst = t.rst) (hp : u.part = t.part)
    (hl : u.estopLatch = t.estopLatch) (hs : u.slotFields = t.slotFields) : Commanded s u where
  reset := by rw [State.inReset, hr]; exact h.reset
  part := hp.trans h.part
  latch := hl.trans h.latch
  halts := hh.trans h.halts
  changes c := by rw [State.chan, State.chan, hc]; exact h.changes c
  slots hss := slotsSound_congr hs (h.slots hss)
  shrinks hp := List.Subset.trans (shrinks_congr hs) (h.shrinks hp)

theorem post (h : Commanded s t) (x : Cpl) : Commanded s (t.post x) := h.quiet rfl rfl rfl rfl rfl rfl

theorem postNotice (h : Commanded s t) (x : Cpl) : Commanded s (t.postNotice x) := by
  have hp : t.postNotice x = { t with posting := (t.postNotice x).posting, lost := (t.postNotice x).lost } := by
    unfold State.postNotice
    split <;> rfl
  rw [hp]
  exact h.quiet rfl rfl rfl rfl rfl rfl

end Commanded

/-- What every command keeps, each from the condition itself and what the statement about it assumes (O8, O9, O10, O12, O13). -/
structure Keeps (s t : State) : Prop where
  bounded : s.queuesBounded → t.queuesBounded
  shaped : s.queuesShaped → t.queuesShaped
  estop : s.estopHolds → t.estopHolds
  halts : s.queuesShaped → s.haltsSettled → ∀ h ∈ t.halts, ∀ c, hasChan h.waiting c = true → (t.chan c).stopped
  slots : s.slotsSound → t.slotsSound
  outputs : s.inReset = false → s.queuesShaped → s.slotsSound → s.outputsSound → t.outputsSound

/-- With no slot in use XSYNC is released (R88). -/
theorem xsyncLow_of_noSlot {s : State} (h : s.slotsSound) (he : s.openList = []) : s.xsyncLow = false := by
  obtain ⟨_, hmem, _, _, hlow⟩ := h
  by_contra hx
  obtain ⟨i, sl, hi, _⟩ := hlow.mp (by simpa using hx)
  have := (hmem i).mpr (by simp [hi])
  simp [he] at this

theorem Commanded.kept {s t : State} (h : Commanded s t) : Keeps s t where
  bounded hb c := (h.changes c).bounded (hb c)
  shaped hs c := (h.changes c).shaped (hs c)
  estop he hl c := by
    have hl' : s.estopLatch = true := h.latch ▸ hl
    exact (h.changes c).holds hl' (he hl' c)
  halts _ hs x hx c hc := by
    rw [h.halts] at hx
    exact (h.changes c).halts ((hs x hx).2 c hc)
  slots := h.slots
  outputs hr _ hss ho := by
    obtain ⟨hlie, hcalm, hnone, _⟩ := ho
    have hreset : t.inReset = false := h.reset.trans hr
    refine ⟨fun hp c => ?_, fun hp c => ?_, fun hp => ?_, fun hin => absurd hin (by simp [hreset])⟩
    · rw [h.part] at hp
      refine (h.changes c).lies ?_ (hlie hp c)
      rcases hp with hp | hp <;> simp [hp]
    · rw [h.part] at hp
      refine (h.changes c).calm ?_ (hcalm hp c)
      rcases hp with hp | hp <;> simp [hp]
    · rw [h.part] at hp
      have he : t.openList = [] := List.eq_nil_of_subset_nil ((hnone hp).1 ▸ h.shrinks hp)
      exact ⟨he, xsyncLow_of_noSlot (h.slots hss) he⟩

/-- A change of part state, of the latch from set to clear, and of what no invariant here speaks of. -/
structure SameMotion (s t : State) : Prop where
  chans : t.chans = s.chans
  halts : t.halts = s.halts
  slots : t.slotFields = s.slotFields
  reset : t.inReset = s.inReset
  latch : t.estopLatch = true → s.estopLatch = true
  outputs : s.inReset = false → s.outputsSound → t.outputsSound

namespace SameMotion

variable {s t u : State}

theorem chan (h : SameMotion s t) (c : Chan) : t.chan c = s.chan c := by rw [State.chan, State.chan, h.chans]

/-- What is kept after such a change is kept from the state before it. -/
theorem kept (h : SameMotion s t) (k : Keeps t u) : Keeps s u where
  bounded hb := k.bounded fun c => h.chan c ▸ hb c
  shaped hs := k.shaped fun c => h.chan c ▸ hs c
  estop he := k.estop fun hl c => h.chan c ▸ he (h.latch hl) c
  halts hs hh := k.halts (fun c => h.chan c ▸ hs c) (haltsSettled_of hh h.halts fun c hc => h.chan c ▸ hc)
  slots hs := k.slots (slotsSound_congr h.slots hs)
  outputs hr hs hss ho := k.outputs (h.reset.trans hr) (fun c => h.chan c ▸ hs c) (slotsSound_congr h.slots hss) (h.outputs hr ho)

theorem kept_self (h : SameMotion s t) : Keeps s t := h.kept (Commanded.refl t).kept

/-- A change that also keeps the part state. -/
theorem of_eq (hc : t.chans = s.chans) (hh : t.halts = s.halts) (hs : t.slotFields = s.slotFields) (hr : t.rst = s.rst)
    (hl : t.estopLatch = true → s.estopLatch = true) (hp : t.part = s.part) : SameMotion s t := by
  have hreset : t.inReset = s.inReset := by rw [State.inReset, hr]; rfl
  refine ⟨hc, hh, hs, hreset, hl, fun hin ho => ?_⟩
  obtain ⟨hlie, hcalm, hnone, _⟩ := ho
  simp only [State.slotFields, Prod.mk.injEq] at hs
  have hchan : ∀ c, t.chan c = s.chan c := fun c => by rw [State.chan, State.chan, hc]
  refine ⟨fun h c => ?_, fun h c => ?_, fun h => ?_, fun h => absurd (hreset ▸ h) (by simp [hin])⟩
  · rw [hchan]; exact hlie (hp ▸ h) c
  · rw [hchan]; exact hcalm (hp ▸ h) c
  · rw [hs.2.1, hs.2.2]; exact hnone (hp ▸ h)

protected theorem trans (h : SameMotion s t) (k : SameMotion t u) : SameMotion s u where
  chans := k.chans.trans h.chans
  halts := k.halts.trans h.halts
  slots := k.slots.trans h.slots
  reset := k.reset.trans h.reset
  latch := h.latch ∘ k.latch
  outputs hr ho := k.outputs (h.reset.trans hr) (h.outputs hr ho)

end SameMotion

end Sys2Proof.Machine
end

section
/-! The invariants of queues, channel states, pending HALTs, the slot table and the outputs: every change of a command keeps them
(O5, O8, O9, O10, O12, O13). -/

namespace Sys2Proof.Machine

/-! ### Stops of every channel -/

/-- The failure of a slot takes it off the open list, which grows by none (R82). -/
theorem failSlot_openList {s : State} (h : s.slotsSound) (i : SlotIx) (status : Status) (w : Option Chan) :
    i ∉ (failSlot i status w s).1.openList := by
  obtain ⟨hnodup, hmem, _⟩ := h
  unfold failSlot
  cases hi : s.slots[i] with
  | none => simp [hmem, hi]
  | some sl =>
    simp only
    intro hin
    have hleft : i ∈ s.openList.erase i :=
      (SettleStep.each _ _ (fun c => SettleStep.haltOrder c (failureMode status) false) _).shrinks hin
    exact (hnodup.mem_erase_iff.mp hleft).1 rfl

/-- Where every open slot fails, none is open after it (R85, R86). -/
theorem failAllSlots_openList {s : State} (h : s.slotsSound) (status : Status) : (failAllSlots status s).1.openList = [] := by
  have gen : ∀ (l : List SlotIx) (u : State), u.slotsSound → (∀ i ∈ u.openList, i ∈ l) →
      (eachAct l (fun i => failSlot i status none) u).1.openList = [] := by
    intro l
    induction l with
    | nil => exact fun u _ hu => List.eq_nil_iff_forall_not_mem.mpr fun i hi => by simpa using hu i hi
    | cons j rest ih =>
      intro u hs hu
      rw [eachAct_cons]
      have step := SettleStep.failSlot j status none u
      refine ih _ (step.slots hs) fun i hi => ?_
      have hne : i ≠ j := fun e => failSlot_openList hs j status none (e ▸ hi)
      simpa [hne] using hu i (step.shrinks hi)
  exact gen _ _ h fun _ hi => hi

/-- The orders to a mask leave each channel that it names as its order does, and the others as they were (R53). -/
theorem haltMask_chan (m : Mask) (mode : StopMode) (byWatch : Bool) (s : State) (c : Chan) :
    (haltMask m mode byWatch s).1.chan c = if hasChan m c then (s.chan c).afterOrder mode byWatch else s.chan c := by
  unfold haltMask
  rw [haltOrders_chan _ (nodup_chansOf m)]
  simp

/-- Orders to channels, then the failure of every slot. -/
theorem SettleStep.stopAll (m : Mask) (mode : StopMode) (status : Status) (s : State) :
    SettleStep s ((Machine.haltMask m mode false s).andThen (failAllSlots status)).settle ∧
      SettleStep (Machine.haltMask m mode false s).1 ((Machine.haltMask m mode false s).andThen (failAllSlots status)).settle := by
  have h := (SettleStep.each _ _ (fun i => SettleStep.failSlot i status none) (Machine.haltMask m mode false s).1).trans
    (SettleStep.settle ((Machine.haltMask m mode false s).andThen (failAllSlots status)))
  exact ⟨(SettleStep.haltMask m mode false s).trans h, h⟩

/-- A drain or a failure halts every channel that is not calm, and leaves no slot open (R158, R161). -/
theorem stopAll_calm {s : State} (hshape : s.queuesShaped) (hslots : s.slotsSound) {m : Mask}
    (hm : ∀ c, hasChan m c = false → (s.chan c).calm) (status : Status) :
    let t := ((haltMask m .decel false s).andThen (failAllSlots status)).settle
    (∀ c, (t.chan c).calm) ∧ t.openList = [] ∧ t.xsyncLow = false := by
  intro t
  obtain ⟨hall, hrest⟩ := SettleStep.stopAll m .decel status s
  have hempty : t.openList = [] := by
    have hfail := failAllSlots_openList ((SettleStep.haltMask m .decel false s).slots hslots) status
    have := (SettleStep.settle ((haltMask m .decel false s).andThen (failAllSlots status))).shrinks
    exact List.eq_nil_of_subset_nil (hfail ▸ this)
  refine ⟨fun c => (hrest.moves c).calm ?_, hempty, xsyncLow_of_noSlot (hall.slots hslots) hempty⟩
  rw [haltMask_chan]
  cases hc : hasChan m c with
  | true => exact Channel.calm_of_stopped (stopped_of_shaped (hshape c) _ _)
  | false => exact hm c hc

/-! ### Resets -/

/-- A reset meets the conditions by itself (R168, R170, R171). -/
structure AtReset (t : State) : Prop where
  chan : ∀ c, ∃ limp limn, t.chan c = Channel.reset limp limn
  halts : t.halts = []
  slots : t.slotFields = State.reset.slotFields
  part : t.part = .off
  latch : t.estopLatch = false
  aux : t.aux = 0

namespace AtReset

variable {t : State}

theorem queues (h : AtReset t) : t.queuesBounded ∧ t.queuesShaped := by
  refine ⟨fun c => ?_, fun c => ?_⟩ <;> obtain ⟨_, _, hc⟩ := h.chan c <;> rw [hc]
  · exact Nat.zero_le _
  · rfl

theorem slotsSound (h : AtReset t) : t.slotsSound := by
  have hnone : ∀ i : SlotIx, State.reset.slots[i] = none := by decide
  refine slotsSound_congr h.slots ⟨List.nodup_nil, fun i => ?_, fun i sl hi => ?_, fun i j a b ha => ?_, ?_⟩
  · rw [hnone]; exact ⟨nofun, nofun⟩
  · rw [hnone] at hi; cases hi
  · rw [hnone] at ha; cases ha
  · refine ⟨nofun, ?_⟩
    rintro ⟨i, sl, hi, _⟩
    rw [hnone] at hi
    cases hi

theorem outputsSound (h : AtReset t) : t.outputsSound := by
  have hslots := h.slots
  simp only [State.slotFields, Prod.mk.injEq] at hslots
  obtain ⟨_, hopen, hlow⟩ := hslots
  refine ⟨fun _ c => ?_, fun hp => ?_, fun _ => ⟨hopen, hlow⟩, fun _ => ⟨h.aux, hlow, fun c => ?_⟩⟩
  · obtain ⟨_, _, hc⟩ := h.chan c
    rw [hc]
    exact ⟨List.mem_cons_self, rfl⟩
  · rw [h.part] at hp
    rcases hp with hp | hp <;> cases hp
  · obtain ⟨_, _, hc⟩ := h.chan c
    rw [hc]
    exact ⟨rfl, rfl⟩

theorem keeps (h : AtReset t) (s : State) : Keeps s t where
  bounded _ := h.queues.1
  shaped _ := h.queues.2
  estop _ hl := by rw [h.latch] at hl; cases hl
  halts _ _ x hx := by rw [h.halts] at hx; cases hx
  slots _ := h.slotsSound
  outputs _ _ _ _ := h.outputsSound

theorem resetPart (s : State) : AtReset (resetPart s) where
  chan c := by
    refine ⟨resetLimit (s.chan c).limp, resetLimit (s.chan c).limn, ?_⟩
    show (updateAll allChans (fun _ ch => resetChannel ch) s.chans)[c] = _
    rw [updateAll_get _ (by decide), if_pos (mem_allChans c)]
    rfl
  halts := rfl
  slots := rfl
  part := rfl
  latch := rfl
  aux := rfl

theorem softResetPart (s : State) : AtReset (softResetPart s) :=
  ⟨(AtReset.resetPart s).chan, rfl, rfl, rfl, rfl, rfl⟩

theorem changeReset (s : State) : AtReset (changeReset s) := .resetPart _

/-- The machine right after reset. -/
theorem reset : AtReset State.reset where
  chan c := ⟨.high false, .high false, by revert c; decide⟩
  halts := rfl
  slots := rfl
  part := rfl
  latch := rfl
  aux := rfl

end AtReset

/-- Settles O5: the values of the reset state. -/
theorem resetMeetsTheInvariants : Obligations.ResetMeetsTheInvariants := by
  have hprof : ∀ i : ProfIx, State.reset.profiles[i] = none := by decide
  refine ⟨fun c => ?_, fun i p hp => ?_, ⟨Nat.zero_le _, Nat.zero_le _⟩, ⟨Nat.zero_le _, Nat.zero_le _⟩,
    AtReset.reset.queues.1, AtReset.reset.queues.2, nofun, fun h hh => (List.not_mem_nil hh).elim, rfl,
    AtReset.reset.slotsSound, AtReset.reset.outputsSound⟩
  · obtain ⟨_, _, hc⟩ := AtReset.reset.chan c
    rw [hc]
    exact (by decide : ChanConfig.reset.valid = true)
  · rw [hprof] at hp
    cases hp

end Sys2Proof.Machine
end

section
/-! What each change of a command does to the channels and the slot table, and the invariants of every step that rest on it. -/

namespace Sys2Proof.Machine

@[simp] theorem State.chan_postNotice (s : State) (x : Cpl) (c : Chan) : (s.postNotice x).chan c = s.chan c := by
  unfold State.postNotice
  split <;> rfl

/-! ### RESUME and the end of a segment -/

/-- A channel after a RESUME that names it (R61). -/
def Channel.afterResume (ch : Channel) : Channel := if resumable ch then { ch with state := .idle } else ch

/-- RESUME makes IDLE each named channel that is HELD and at rest, and changes nothing else (R61). -/
theorem resumed_spec {l : List Chan} (hl : l.Nodup) (s : State) :
    (∀ d, (l.foldl resumeChan s).chan d = if d ∈ l then (s.chan d).afterResume else s.chan d)
      ∧ l.foldl resumeChan s = { s with chans := (l.foldl resumeChan s).chans } := by
  have one (c : Chan) (u : State) : resumeChan u c = u.setChan c (u.chan c).afterResume := by
    unfold resumeChan Channel.afterResume
    split
    · rfl
    · simp [State.setChan, State.chan]
  induction l generalizing s with
  | nil => exact ⟨fun d => by simp, rfl⟩
  | cons c rest ih =>
    obtain ⟨hc, hr⟩ := List.nodup_cons.mp hl
    obtain ⟨hchan, hframe⟩ := ih hr (resumeChan s c)
    rw [List.foldl_cons]
    refine ⟨fun d => ?_, ?_⟩
    · rw [hchan, one, State.chan_setChan]
      by_cases hd : d = c
      · subst hd; simp [hc]
      · simp [hd]
    · rw [hframe, one]
      rfl

theorem runMarks_runsOn (c : Chan) (l : List Entry) (s : State) : RunsOn c s (runMarks c l s) (s.chan c) := by
  induction l generalizing s with
  | nil => exact ⟨rfl, fun _ _ => rfl, rfl⟩
  | cons e rest ih =>
    cases e with
    | mark tag a b =>
      have h := (runMark_runsOn c tag a b s).trans (ih (runMark c tag a b s))
      rwa [(runMark_runsOn c tag a b s).chan] at h
    | move m => exact ih s
    | dwell tag d => exact ih s
    | setPosition tag v => exact ih s
    | marker i => exact ih s

/-- A channel whose bound successor takes the head (R24). -/
def Channel.takenUp (ch : Channel) (m : MoveEntry) (r : Resolved) (behind : List Entry) : Channel :=
  { ch with
    queue := .move m :: behind
    resolved := some r
    binding := if m.exitRate.isSome then .pending else .notChained
    watchHalt := false
    pgn := { ch.pgn with remaining := r.steps, emitted := 0, schedule := none, lastEnd := none } }

theorem takeUpSuccessor_runsOn (c : Chan) (m : MoveEntry) (r : Resolved) (behind : List Entry) (s : State) :
    RunsOn c s (takeUpSuccessor c m r behind s).1
      (((s.chan c).takenUp m r behind).afterFirst s.now (max (s.chan c).pgn.rateSq (m.profile.vs ^ 2))) := by
  have h := (RunsOn.setChan c s ((s.chan c).takenUp m r behind)).trans
    (firstStep_runsOn c (max (s.chan c).pgn.rateSq (m.profile.vs ^ 2)) _)
  rwa [State.chan_setChan_self] at h

/-- The end of a segment leaves its channel with a queue as its state says, and no longer than it was (R15, R24). -/
theorem endSegment_runsOn (c : Chan) (m : MoveEntry) (s : State) (hst : (s.chan c).state = .running) :
    ∃ x, RunsOn c s (endSegment c m s).1 x ∧ x.shaped = true ∧ x.queue.length ≤ (s.chan c).queue.length := by
  have hpost : RunsOn c s (postSegment c m s) (s.chan c) := ⟨rfl, fun _ _ => rfl, rfl⟩
  have htail : (s.chan c).queue.tail.length ≤ (s.chan c).queue.length := by simp
  unfold endSegment
  simp only
  split
  · rename_i place successor next behind _ hdrop
    have hmarks := hpost.trans (runMarks_runsOn c ((s.chan c).queue.tail.take (place - 1)) _)
    rw [hpost.chan] at hmarks
    have h := hmarks.trans (takeUpSuccessor_runsOn c next successor behind _)
    rw [hmarks.chan] at h
    refine ⟨_, h, ?_, ?_⟩
    · rw [afterFirst_frame]
      simp [Channel.shaped, Channel.takenUp, hst]
    · rw [afterFirst_frame]
      show (Entry.move next :: behind).length ≤ _
      rw [← hdrop, List.length_drop]
      exact (Nat.sub_le _ _).trans htail
  · have hrest := RunsOn.setChan c (postSegment c m s) { s.chan c with pgn := (s.chan c).pgn.atRest }
    have h := (hpost.trans hrest).trans (runHead_runsOn c (s.chan c).queue.tail _)
    exact ⟨_, h, shaped_afterRun _ _ _, (length_afterRun _ _ _).trans htail⟩

/-! ### A slot opened -/

/-- A slot that a RENDEZVOUS opens keeps the table sound (R76, R77, R88). -/
theorem slotsSound_openSlot {s : State} (h : s.slotsSound) {i : SlotIx} {r : Block} (hi : s.slots[i] = none)
    (hm : recMask r 8 ≠ 0) (hx : blockByte r 9 = 1 → externalOpen s = false) : (openSlot i (openedSlot r) s).slotsSound := by
  obtain ⟨hnodup, hmem, hsound, hone, hlow⟩ := h
  have hget : ∀ j : SlotIx, (openSlot i (openedSlot r) s).slots[j] = if j = i then some (openedSlot r) else s.slots[j] :=
    fun j => State.slots_setSlot_get s i j _
  have hopen : (openSlot i (openedSlot r) s).openList = s.openList ++ [i] := rfl
  have hnew : (openedSlot r).sound := ⟨hm, by simp [openedSlot], by
    simp only [openedSlot, reduceCtorEq, false_iff]; exact Ne.symm hm, nofun⟩
  have hext : (openedSlot r).external = true → ∀ (j : SlotIx) (x : Slot), s.slots[j] = some x → x.external = false := by
    intro he j x hj
    have hb : blockByte r 9 = 1 := by simpa [openedSlot] using he
    have hnone := List.any_eq_false.mp (hx hb) j ((hmem j).mpr (by simp [hj]))
    simpa [hj] using hnone
  have hlowget : (openSlot i (openedSlot r) s).xsyncLow = (s.xsyncLow || (openedSlot r).external) := rfl
  refine ⟨?_, fun j => ?_, fun j x hj => ?_, fun j k a b ha hb hae hbe => ?_, ?_⟩
  · rw [hopen]
    refine List.nodup_append.mpr ⟨hnodup, by simp, fun a ha b hb => ?_⟩
    rintro rfl
    have := (hmem a).mp ha
    rw [List.mem_singleton.mp hb, hi] at this
    cases this
  · rw [hopen, hget, List.mem_append, hmem, List.mem_singleton]
    by_cases hj : j = i <;> simp [hj]
  · rw [hget] at hj
    split at hj
    · cases hj; exact hnew
    · exact hsound j x hj
  · rw [hget] at ha hb
    split at ha <;> split at hb
    · next h1 h2 => exact h1.trans h2.symm
    · cases ha; rw [hext hae k b hb] at hbe; cases hbe
    · cases hb; rw [hext hbe j a ha] at hae; cases hae
    · exact hone j k a b ha hb hae hbe
  · rw [hlowget, Bool.or_eq_true, hlow]
    constructor
    · rintro (⟨j, x, hj, he, ha⟩ | he)
      · refine ⟨j, x, ?_, he, ha⟩
        rw [hget, if_neg]
        · exact hj
        · rintro rfl; rw [hi] at hj; cases hj
      · exact ⟨i, openedSlot r, by rw [hget, if_pos rfl], he, Ne.symm hm⟩
    · rintro ⟨j, x, hj, he, ha⟩
      rw [hget] at hj
      split at hj
      · cases hj; exact .inr he
      · exact .inl ⟨j, x, hj, he, ha⟩

/-! ### The changes of a command -/

namespace Commanded

variable {s t : State} {c : Chan}

/-- A step, or the first step of a segment, on a channel in motion (R31 to R33). -/
theorem emitStep (rateSq : Nat) (h : (s.chan c).state = .running ∨ (s.chan c).state = .stopping) :
    Commanded s (emitStep c rateSq s).settle := by
  refine Commanded.settled ?_ (.settle _)
  refine .of_runsOn (emitStep_runsOn c rateSq s) (.of_state ?_ ?_ fun hl => ?_)
  · rw [afterEmit_frame]
  · rw [afterEmit_frame]
  · rcases h with h | h <;> simp [Channel.lies, h] at hl

theorem firstStep (entrySq : Nat) (f : Pgn → Pgn) (h : (s.chan c).state = .running) :
    Commanded s (firstStep c entrySq (s.modChan c fun ch => { ch with pgn := f ch.pgn })).settle := by
  refine Commanded.settled ?_ (.settle _)
  have hr := (RunsOn.setChan c s { s.chan c with pgn := f (s.chan c).pgn }).trans (firstStep_runsOn c entrySq _)
  rw [State.chan_setChan_self] at hr
  refine .of_runsOn hr (.of_state ?_ ?_ fun hl => ?_)
  · rw [afterFirst_frame]
  · rw [afterFirst_frame]
  · simp [Channel.lies, h] at hl

/-- The end of a pulse (R32, R45, R56). -/
theorem takePulseEnd (c : Chan) (s : State) : Commanded s (takePulseEnd c s) := by
  have hp : ((s.chan c).pgn.fall s.now).pulseEnd = none := by
    unfold Pgn.fall
    simp only
    split <;> rfl
  have h : Commanded s (s.setChan c { s.chan c with kept := none, pgn := (s.chan c).pgn.fall s.now }) :=
    .setChan (.of_state rfl rfl fun _ => hp)
  unfold Machine.takePulseEnd
  simp only
  split
  · exact h.post _
  · exact h

/-- The end of a segment, with the limit changes that the channel takes as it comes to rest (R15, R24, R69). -/
theorem endSegment (m : MoveEntry) (h : (s.chan c).state = .running) :
    Commanded s (endSegment c m (limitsAtRest c s)).settle := by
  refine Commanded.settled ?_ (.settle _)
  obtain ⟨x, hlim, hstate, hqueue⟩ : ∃ x, RunsOn c s (limitsAtRest c s) x ∧ x.state = .running
      ∧ x.queue = (s.chan c).queue := by
    unfold limitsAtRest
    split
    · exact ⟨_, ⟨rfl, fun _ _ => rfl, rfl⟩, h, rfl⟩
    · refine ⟨(s.chan c).takeLimits s.now, .setChan c s _, ?_, ?_⟩ <;> rw [takeLimits_frame]
      exact h
  obtain ⟨y, hend, hshape, hlen⟩ := endSegment_runsOn c m (limitsAtRest c s) (by rw [hlim.chan]; exact hstate)
  rw [hlim.chan, hqueue] at hlen
  exact .of_runsOn (hlim.trans hend) (.of_active (.inl h) hshape hlen)

theorem stopAtRest (c : Chan) (s : State) : Commanded s (stopAtRest c s) :=
  .of_runsOn (.of_onChannel (stopAtRest_on c s)) (.of_held rfl rfl rfl)

theorem takeDwellExpiry {tag : Word} {duration : Nat} {rest : List Entry} (h : (s.chan c).state = .dwelling)
    (hq : (s.chan c).queue = .dwell tag duration :: rest) : Commanded s (takeDwellExpiry c s) := by
  simp only [Machine.takeDwellExpiry, hq]
  refine Commanded.settled ?_ (.settle _)
  have hr := fun x : Cpl => ((RunsOn.setChan c s { s.chan c with dwellStart := none }).post x).trans (runHead_runsOn c rest _)
  refine .of_runsOn (hr _) (.of_active (.inr h) (shaped_afterRun _ _ _) ((length_afterRun _ _ _).trans ?_))
  rw [hq]
  simp

/-- A channel held at once after a change that left its pulse as it was (R56). -/
theorem held (h : Commanded s t) (byLimit : Bool) (hp : (t.chan c).pgn.pulseEnd = (s.chan c).pgn.pulseEnd) :
    Commanded s (enterHeld c byLimit t).1 := by
  have hh := enterHeld_on c byLimit t
  obtain ⟨hstate, hqueue, hpulse, _⟩ := afterHeld_spec (t.chan c) byLimit
  have hframe := hh.frame
  have hslots : (enterHeld c byLimit t).1.slotFields = t.slotFields := by rw [hframe]; rfl
  refine ⟨?_, ?_, ?_, ?_, fun d => ?_, fun hs => slotsSound_congr hslots (h.slots hs),
    fun hr => List.Subset.trans (shrinks_congr hslots) (h.shrinks hr)⟩
  · rw [hframe]; exact h.reset
  · rw [hframe]; exact h.part
  · rw [hframe]; exact h.latch
  · rw [hframe]; exact h.halts
  · by_cases hd : d = c
    · subst hd
      rw [hh.chan]
      exact .of_held hstate hqueue (hpulse.trans hp)
    · rw [hh.others d hd]
      exact h.changes d

/-- A limit change, and the stop that it makes of a channel moving toward its input (R66, R68). -/
theorem takeLimitChange (c : Chan) (input : LimitInput) (active : Bool) (s : State) :
    Commanded s (takeLimitChange c input active s) := by
  have hset := RunsOn.setChan c s ((s.chan c).setLimit input ((s.chan c).limit input).change)
  have hframe := setLimit_frame (s.chan c) input ((s.chan c).limit input).change
  have hstate : ((s.chan c).setLimit input ((s.chan c).limit input).change).state = (s.chan c).state := by rw [hframe]
  have hqueue : ((s.chan c).setLimit input ((s.chan c).limit input).change).queue = (s.chan c).queue := by rw [hframe]
  have hpgn : ((s.chan c).setLimit input ((s.chan c).limit input).change).pgn = (s.chan c).pgn := by rw [hframe]
  have hplain := Commanded.of_runsOn hset (.of_state hstate hqueue fun hl => by rw [hpgn]; exact hl.2)
  have hpulse : ∀ x : Cpl, (((s.setChan c ((s.chan c).setLimit input ((s.chan c).limit input).change)).postNotice x).chan
      c).pgn.pulseEnd = (s.chan c).pgn.pulseEnd := by
    intro x
    rw [State.chan_postNotice, hset.chan, hpgn]
  unfold Machine.takeLimitChange
  simp only
  split
  · split
    · exact ((hplain.postNotice _).held true (hpulse _)).settled (.settle _)
    · exact hplain
  · exact hplain

end Commanded

end Sys2Proof.Machine
end

section
/-! The invariants of every step: each change of a command keeps them, and so do the end of a command and a cycle. -/

namespace Sys2Proof.Machine

/-! ### Changes of part state, of the latch and of the pending HALTs -/

/-- A part state entered with the channels, the slots and the latch as they were. -/
theorem SameMotion.enters {s t : State} (hc : t.chans = s.chans) (hh : t.halts = s.halts) (hs : t.slotFields = s.slotFields)
    (hr : t.rst = s.rst) (hl : t.estopLatch = s.estopLatch)
    (hlie : s.outputsSound → t.part = .off ∨ t.part = .starting → ∀ c, (s.chan c).lies)
    (hcalm : t.part ≠ .draining ∧ t.part ≠ .failed)
    (hnone : t.part ≠ .running → s.part ≠ .running) : SameMotion s t := by
  have hreset : t.inReset = s.inReset := by rw [State.inReset, hr]; rfl
  refine ⟨hc, hh, hs, hreset, fun h => hl ▸ h, fun hin ho => ?_⟩
  simp only [State.slotFields, Prod.mk.injEq] at hs
  have hchan : ∀ c, t.chan c = s.chan c := fun c => by rw [State.chan, State.chan, hc]
  refine ⟨fun h c => ?_, fun h => ?_, fun h => ?_, fun h => absurd (hreset ▸ h) (by simp [hin])⟩
  · rw [hchan]; exact hlie ho h c
  · rcases h with h | h
    · exact absurd h hcalm.1
    · exact absurd h hcalm.2
  · rw [hs.2.1, hs.2.2]
    exact ho.2.2.1 (hnone h)

/-- The end of a drain finds every channel at rest with STEP low (R159). -/
theorem lies_of_drained {s : State} (ho : s.outputsSound) (hd : drained s = true) (c : Chan) : (s.chan c).lies := by
  simp only [drained, Bool.and_eq_true, beq_iff_eq, List.all_eq_true, Option.isNone_iff_eq_none] at hd
  obtain ⟨⟨⟨⟨⟨hpart, hrest⟩, _⟩, _⟩, _⟩, _⟩ := hd
  obtain ⟨hr, hp⟩ := hrest c (mem_allChans c)
  refine ⟨?_, hp⟩
  have hcalm := ho.2.1 (.inl hpart) c
  cases hst : (s.chan c).state <;> simp_all [Channel.atRest]

theorem part_of_drained {s : State} (hd : drained s = true) : s.part = .draining := by
  simp only [drained, Bool.and_eq_true, beq_iff_eq] at hd
  exact hd.1.1.1.1.1

/-- A halt request: the channels that it orders to stop are stopped, and its pending element waits for those (R59, R60). -/
theorem keeps_admitHalt {s : State} {r : Block} {mode : StopMode} (hm : haltMode? (blockByte r 9) = some mode) :
    Keeps s (admitHalt r s) := by
  have hmoves : SettleStep (haltMask (recMask r 8) mode false s).1 (haltMask (recMask r 8) mode false s).settle := .settle _
  have hall := (SettleStep.haltMask (recMask r 8) mode false s).trans hmoves
  have hk := (Commanded.of_settled hall).kept
  have hhalts : (haltMask (recMask r 8) mode false s).settle.halts = s.halts := (Commanded.of_settled hall).halts
  simp only [admitHalt, hm]
  refine ⟨hk.bounded, hk.shaped, hk.estop, fun hs hh x hx c hc => ?_, hk.slots, hk.outputs⟩
  obtain hx | hx := List.mem_append.mp hx
  · exact hk.halts hs hh x hx c hc
  · rw [List.mem_singleton.mp hx, hasChan_stillMoving, Bool.and_eq_true] at hc
    refine (hmoves.moves c).stopped ?_
    rw [haltMask_chan, if_pos hc.1]
    exact stopped_of_shaped (hs c) _ _

/-- Part states in which a drain or a failure has stopped every channel. -/
theorem keeps_stopAll {s u : State} (hc : u.chans = s.chans) (hh : u.halts = s.halts) (hs : u.slotFields = s.slotFields)
    (hr : u.rst = s.rst) (hl : u.estopLatch = s.estopLatch) (hp : u.part = .draining ∨ u.part = .failed) {m : Mask}
    (hm : ∀ c, hasChan m c = false → (s.chan c).calm) (status : Status) :
    Keeps s ((haltMask m .decel false u).andThen (failAllSlots status)).settle := by
  have hchan : ∀ c, u.chan c = s.chan c := fun c => by rw [State.chan, State.chan, hc]
  have hcommand := Commanded.of_settled (SettleStep.stopAll m .decel status u).1
  have hk := hcommand.kept
  refine ⟨fun hb => hk.bounded fun c => hchan c ▸ hb c, fun hsh => hk.shaped fun c => hchan c ▸ hsh c,
    fun he => hk.estop fun h c => hchan c ▸ he (hl ▸ h) c,
    fun hsh hhs => hk.halts (fun c => hchan c ▸ hsh c) (haltsSettled_of hhs hh fun c h => hchan c ▸ h),
    fun hss => hk.slots (slotsSound_congr hs hss), fun hin hsh hss _ => ?_⟩
  obtain ⟨hcalm, hempty, hlow⟩ := stopAll_calm (s := u) (m := m) (fun c => hchan c ▸ hsh c) (slotsSound_congr hs hss)
    (fun c h => hchan c ▸ hm c h) status
  have hpart := hcommand.part
  have hreset : ((haltMask m .decel false u).andThen (failAllSlots status)).settle.inReset = false :=
    hcommand.reset.trans (by rw [State.inReset, hr]; exact hin)
  refine ⟨fun h => ?_, fun _ => hcalm, fun _ => ⟨hempty, hlow⟩, fun h => absurd h (by simp [hreset])⟩
  rw [hpart] at h
  rcases hp with hp | hp <;> rcases h with h | h <;> rw [hp] at h <;> cases h

theorem keeps_enterDraining (s : State) : Keeps s (enterDraining s) := by
  refine keeps_stopAll (s := s) (m := drainMask s) (u := stopIntake { s with part := .draining }) rfl rfl rfl rfl rfl (.inl rfl) (fun c h => ?_) _
  simp only [drainMask, hasChan_maskOf] at h
  unfold Channel.calm
  cases hst : (s.chan c).state <;> simp_all

theorem keeps_enterFailed (s : State) : Keeps s (enterFailed s) := by
  refine keeps_stopAll (s := s) (m := failedMask s) (u := stopIntake { s with part := .failed, faultCode := .completionWrite }) rfl rfl rfl rfl
    rfl (.inr rfl) (fun c h => ?_) _
  simp only [failedMask, hasChan_maskOf] at h
  unfold Channel.calm
  cases hst : (s.chan c).state <;> simp_all

/-- An assertion of ESTOP that acts sets the latch and holds every channel that is not DISABLED (R163, R164). -/
theorem keeps_assertEstop (s : State) : Keeps s (assertEstop s) := by
  obtain ⟨hall, hrest⟩ := SettleStep.stopAll (enabledMask s) .abrupt .aborted { s with estopLatch := true }
  have hcommand : Commanded { s with estopLatch := true } (assertEstop s) := by
    have hq := (Commanded.of_settled hall).quiet
      (u := { ((haltMask (enabledMask s) .abrupt false { s with estopLatch := true }).andThen
        (failAllSlots .aborted)).settle with aux := safePatternOf s }) rfl rfl rfl rfl rfl rfl
    exact hq.postNotice _
  have hk := hcommand.kept
  refine ⟨hk.bounded, hk.shaped, fun _ _ c => ?_, hk.halts, hk.slots, hk.outputs⟩
  have hlast : (assertEstop s).chan c
      = ((haltMask (enabledMask s) .abrupt false { s with estopLatch := true }).andThen (failAllSlots .aborted)).settle.chan c :=
    State.chan_postNotice _ _ c
  have hheld : (((haltMask (enabledMask s) .abrupt false { s with estopLatch := true }).1.chan c).state = .held
      ∨ ((haltMask (enabledMask s) .abrupt false { s with estopLatch := true }).1.chan c).state = .disabled) := by
    rw [haltMask_chan, enabledMask, hasChan_maskOf]
    show (if ((s.chan c).state != .disabled) = true then (s.chan c).afterOrder .abrupt false else s.chan c).state = _ ∨
      (if ((s.chan c).state != .disabled) = true then (s.chan c).afterOrder .abrupt false else s.chan c).state = _
    cases hst : (s.chan c).state <;>
      simp [Channel.afterOrder, hst, (afterHeld_spec (s.chan c) false).1]
  rw [hlast, (hrest.moves c).eq_of_held hheld]
  exact hheld

theorem keeps_takeAssertion (s : State) : Keeps s (takeAssertion s) := by
  unfold takeAssertion
  split
  case h_3 => exact (Commanded.of_settled ((SettleStep.haltMask _ _ _ _).trans (.settle _))).kept
  case h_4 | h_5 => exact (Commanded.refl s).kept
  all_goals
    split
    · exact (Commanded.refl s).kept
    · exact keeps_assertEstop s

/-- The end of the setup: in service with the channels as they were, and the latch set where ESTOP is asserted (R156, R165). -/
theorem keeps_enterRunning {s : State} (b : Block) (hp : s.part = .starting) : Keeps s (enterRunning b s) := by
  have hload : SameMotion s (loadSetup b s) :=
    .enters rfl rfl rfl rfl rfl (fun _ h => by rcases h with h | h <;> cases h) ⟨nofun, nofun⟩ (fun _ => by simp [hp])
  unfold enterRunning
  simp only
  split
  · exact hload.kept (keeps_takeAssertion _)
  · exact hload.kept_self

/-- What a completed write changes (R126, R137, R145, R146). -/
theorem recordWritten_frame (r : Cpl) (rest : List Cpl) (s : State) :
    recordWritten r rest s = { s with
      posting := rest, writing := none, cplWrite := (recordWritten r rest s).cplWrite, pass := (recordWritten r rest s).pass
      mainRing := (recordWritten r rest s).mainRing, ctrlRing := (recordWritten r rest s).ctrlRing
      unannounced := (recordWritten r rest s).unannounced, oldest := (recordWritten r rest s).oldest
      intCause := (recordWritten r rest s).intCause } := by
  have advance (u : State) : advanceWrite u = { u with cplWrite := (advanceWrite u).cplWrite, pass := (advanceWrite u).pass } := by
    unfold advanceWrite
    split <;> rfl
  have credit (u : State) : returnCredit r.charged u
      = { u with mainRing := (returnCredit r.charged u).mainRing, ctrlRing := (returnCredit r.charged u).ctrlRing } := by
    unfold returnCredit
    split
    · rename_i ring _
      cases ring <;> rfl
    · rfl
  have count (u : State) : countWrite u = { u with
      unannounced := (countWrite u).unannounced, oldest := (countWrite u).oldest, intCause := (countWrite u).intCause } := by
    unfold countWrite
    simp only
    split <;> rfl
  have all : ∀ u : State, u = countWrite (returnCredit r.charged (advanceWrite { s with posting := rest, writing := none })) →
      u = { s with
        posting := rest, writing := none, cplWrite := u.cplWrite, pass := u.pass, mainRing := u.mainRing
        ctrlRing := u.ctrlRing, unannounced := u.unannounced, oldest := u.oldest, intCause := u.intCause } := by
    rintro u rfl
    rw [count, credit, advance]
  unfold recordWritten
  simp only
  split
  · unfold State.raise
    rw [all _ rfl]
  · exact all _ rfl

/-! ### Every command -/

/-- Every command keeps the conditions. -/
theorem effect_keeps (i : Instr) (s : State) : Keeps s (effect i s) := by
  have all : EffectsMeet (SameMotion s) (Keeps s) := {
    stays t h := h.kept_self
    consumes t ring r h _ := h.trans (by cases ring <;> exact .of_eq rfl rfl rfl rfl id rfl)
    completes t x h _ _ := h.kept ((Commanded.refl t).post x).kept
    admits t c e h hp hq :=
      h.kept (((Commanded.of_runsOn (appendEntry_runsOn e c t) (hp ▸ .of_entry hq t.now e)).settled (.settle _)).kept)
    opens t r i h hp hi hm hq hx := by
      obtain ⟨hchan, hframe⟩ := eachAct_runsOn (after := fun now _ ch => ch.afterEntry now (.marker i))
        (appendEntry_runsOn (.marker i)) (nodup_chansOf (recMask r 8)) (openSlot i (openedSlot r) t)
      refine h.kept ((Commanded.settled (t := (eachAct (chansOf (recMask r 8)) (fun c => appendEntry c (.marker i))
        (openSlot i (openedSlot r) t)).1) ⟨?_, ?_, ?_, ?_, fun c => ?_, fun hs => ?_, ?_⟩ (.settle _)).kept)
      · rw [hframe]; rfl
      · rw [hframe]; rfl
      · rw [hframe]; rfl
      · rw [hframe]; rfl
      · rw [hchan]
        split
        · rename_i hc
          rw [hp]
          exact .of_entry (hq c ((mem_chansOf _ _).mp hc)) _ _
        · exact .refl
      · exact slotsSound_congr (by rw [hframe]; rfl) (slotsSound_openSlot hs hi hm hx)
      · exact fun hr => absurd hp hr
    defines t i p x h _ _ _ := by
      have hset : Commanded t (t.setProfile i (some p)) := (Commanded.refl t).quiet rfl rfl rfl rfl rfl rfl
      exact h.kept (hset.post x).kept
    halts t r mode h _ hm := h.kept (keeps_admitHalt hm)
    resumes t r h _ hl := by
      simp only [admitResume, hl, Bool.false_eq_true, if_false]
      obtain ⟨hchan, hframe⟩ := resumed_spec (nodup_chansOf (recMask r 8)) t
      refine h.kept ((Commanded.of_chans (t := (chansOf (recMask r 8)).foldl resumeChan t) (by rw [hframe]) fun c => ?_).post _).kept
      rw [hchan, hl]
      split
      · unfold Channel.afterResume
        split
        · rename_i hr; exact .of_resume hr
        · exact .refl
      · exact .refl
    overrides t c m vc x h _ hst hm _ := by
      have hset : Commanded t (t.setChan c (overrideHead (t.chan c) m vc)) := by
        have hq : (t.chan c).queue ≠ [] := fun hn => by simp [Channel.headMove?, hn] at hm
        refine .setChan (.of_active (.inl hst) ?_ ?_)
        · simp [Channel.shaped, overrideHead, hst]
        · simp only [overrideHead, List.length_cons, List.length_tail]
          have := List.length_pos_iff.mpr hq
          omega
      exact h.kept (hset.post x).kept
    cancels t i x h _ _ :=
      h.kept ((Commanded.of_settled ((SettleStep.failSlot i _ _ t).trans (.settle _))).post x).kept
    watches t i w x h _ _ := by
      have hset : Commanded t (t.setWatch i w) := (Commanded.refl t).quiet rfl rfl rfl rfl rfl rfl
      exact h.kept (hset.post x).kept
    configures t c cfg x h _ hf _ _ := by
      have hset : Commanded t (t.setChan c (configure (t.chan c) cfg t.estopLatch)) := .setChan (.of_configure hf cfg)
      exact h.kept (hset.post x).kept
    clears t x h _ _ := by
      have hclear : SameMotion t ({ t with estopLatch := false }.post x) := .of_eq rfl rfl rfl rfl nofun rfl
      exact h.kept hclear.kept_self
    registers t u h hu := by
      refine h.kept (SameMotion.of_eq ?_ ?_ ?_ ?_ ?_ ?_).kept_self <;> rw [hu]
      · rfl
      · exact id
    enables t b h := h.trans (.of_eq rfl rfl rfl rfl id rfl)
    starts t h hp := by
      refine h.kept (SameMotion.kept_self ?_)
      have hlie : t.outputsSound → ∀ c, (t.chan c).lies := fun ho => ho.1 (.inl hp)
      unfold enterStarting
      simp only
      split
      · exact .enters rfl rfl rfl rfl rfl (fun ho _ => hlie ho) ⟨nofun, nofun⟩ (fun _ => by simp [hp])
      · exact .enters rfl rfl rfl rfl rfl (fun ho _ => hlie ho) ⟨nofun, nofun⟩ (fun _ => by simp [hp])
    abandons t h hp := by
      have hoff : SameMotion t { t with part := .off, setupRead := none } :=
        .enters rfl rfl rfl rfl rfl (fun ho _ => ho.1 (.inr hp)) ⟨nofun, nofun⟩ (fun _ => by simp [hp])
      exact h.kept hoff.kept_self
    drains t h _ := h.kept (keeps_enterDraining t)
    softResets t _ := (AtReset.softResetPart t).keeps s
    resets t _ := (AtReset.resetPart t).keeps s
    pinResets t _ := (AtReset.changeReset t).keeps s
    estopFollows t h := h.trans (.of_eq rfl rfl rfl rfl id rfl)
    asserts t h := h.kept (keeps_takeAssertion t)
    limitChanges t c input active h := h.kept (Commanded.takeLimitChange c input active t).kept
    edges t input rise h := by
      have hcap : Commanded t (changeCapture input t) := (Commanded.refl t).quiet rfl rfl rfl rfl rfl rfl
      exact h.kept (hcap.settled ((SettleStep.takeEdge input rise _).trans (.settle _))).kept
    releases t i h := h.kept (Commanded.of_settled ((SettleStep.releaseSlot i t).trans (.settle _))).kept
    steps t c rateSq h hst := h.kept (Commanded.emitStep rateSq hst).kept
    settles t c entrySq h hst := h.kept (Commanded.firstStep entrySq (fun p => { p with settleEnd := none }) hst).kept
    falls t c e h _ _ := h.kept (Commanded.takePulseEnd c t).kept
    segments t c m h hst _ := h.kept (Commanded.endSegment m hst).kept
    rests t c h _ := h.kept (Commanded.stopAtRest c t).kept
    dwells t c tag duration rest h hst hq := h.kept (Commanded.takeDwellExpiry hst hq).kept
    expires t i h := h.kept (Commanded.of_settled ((SettleStep.failSlot i _ _ t).trans (.settle _))).kept
    fetchFails t ring r x h _ _ := by
      have hset : Commanded t (t.setRing ring r) := by
        cases ring <;> exact (Commanded.refl t).quiet rfl rfl rfl rfl rfl rfl
      exact h.kept (hset.postNotice x).kept
    written t r rest h _ := by
      refine h.kept (SameMotion.kept_self ?_)
      have hframe := recordWritten_frame r rest t
      refine .of_eq ?_ ?_ ?_ ?_ ?_ ?_ <;> rw [hframe]
      · rfl
      · exact id
    fails t h _ := by
      have hfault : SameMotion t ({ t with writing := none }.raise causeFault) := .of_eq rfl rfl rfl rfl id rfl
      exact (h.trans hfault).kept (keeps_enterFailed _)
    setupEnds t code h hp := by
      have hoff : SameMotion t (setupFails code t) :=
        .enters rfl rfl rfl rfl rfl (fun ho _ => ho.1 (.inr hp)) ⟨nofun, nofun⟩ (fun _ => by simp [hp])
      exact h.kept hoff.kept_self
    serves t b h hp := h.kept (keeps_enterRunning b hp)
    leaves t h hd := by
      have hoff : SameMotion t { t with part := .off } :=
        .enters rfl rfl rfl rfl rfl (fun ho _ => lies_of_drained ho hd) ⟨nofun, nofun⟩ (fun _ => by simp [part_of_drained hd])
      exact h.kept hoff.kept_self
    announces t h hd := by
      have hoff : SameMotion t (announce { t with part := .off }) :=
        .enters rfl rfl rfl rfl rfl (fun ho _ => lies_of_drained ho hd) ⟨nofun, nofun⟩ (fun _ => by simp [part_of_drained hd])
      exact h.kept hoff.kept_self }
  exact all.effect i (.of_eq rfl rfl rfl rfl id rfl)

end Sys2Proof.Machine
end

section
/-! The statements of the invariants of every step (O8, O9, O10, O12, O13): a command, its end and a cycle. -/

namespace Sys2Proof.Machine

/-- The end of a command leaves the channels, the slots, the part state, the latch and the reset as they are. -/
theorem finish_still (s : State) : SameMotion { s with halts := (finish s).halts } (finish s) := by
  rw [finish_eq]
  exact .of_eq rfl rfl rfl rfl id rfl

/-- At the end of a command the pending HALTs wait for channels still coming to rest, once those they wait for are stopped
(R60). -/
theorem haltsSettled_finish {s : State} (h : ∀ x ∈ s.halts, ∀ c, hasChan x.waiting c = true → (s.chan c).stopped) :
    (finish s).haltsSettled := by
  have hrest : ∀ ch : Channel, ch.stopped → restedHalted ch = false → ch.comingToRest = true := by
    rintro ch (hs | hs | hs) hr <;> simp_all [restedHalted, Channel.atRest, Channel.comingToRest]
  rw [finish_eq]
  intro x hx
  obtain ⟨y, hy, rfl⟩ := List.mem_map.mp hx
  obtain ⟨hy, hw⟩ := List.mem_filter.mp hy
  refine ⟨by simpa using hw, fun c hc => ?_⟩
  simp only [hasChan_stillMoving, Bool.and_eq_true, Bool.not_eq_true'] at hc
  exact hrest _ (h y hy c hc.1) hc.2

/-- The end of a command touches no output (R170). -/
theorem outputsSound_finish {s : State} (h : s.outputsSound) : (finish s).outputsSound := by
  rw [finish_eq]
  exact h

/-- The conditions after the end of a command, from those before it. -/
theorem keeps_finish (s : State) : Keeps s (finish s) where
  bounded hb := (finish_still s).kept_self.bounded hb
  shaped hs := (finish_still s).kept_self.shaped hs
  estop he := (finish_still s).kept_self.estop he
  halts _ hh := fun x hx c hc => by
    have := (haltsSettled_finish fun y hy d hd => stopped_of_comingToRest ((hh y hy).2 d hd)) x hx
    exact stopped_of_comingToRest (this.2 c hc)
  slots hs := (finish_still s).kept_self.slots hs
  outputs _ _ _ ho := outputsSound_finish ho

/-- A reset and the end of its command meet the conditions (R168, R171). -/
theorem atReset_finish {s : State} (h : AtReset s) : AtReset (finish s) := by
  have hhalts : haltsLeft s s = [] := by simp [haltsLeft, h.halts]
  rw [finish_eq]
  exact ⟨h.chan, hhalts, h.slots, h.part, h.latch, h.aux⟩

/-- A cycle changes the limit qualifiers of the channels, and no field that the conditions speak of. -/
theorem commanded_tickWith (p : Inputs) (s : State) :
    Commanded s (tickWith p s) ∧ (tickWith p s).slotFields = s.slotFields ∧ (tickWith p s).aux = s.aux := by
  have hnext : s.nextCycle = { s with
      now := s.nextCycle.now, clock := s.nextCycle.clock, clockPart := s.nextCycle.clockPart } := by
    unfold State.nextCycle
    split <;> [skip; split] <;> rfl
  have hreset : (tickWith p s).inReset = s.inReset := by
    show (s.nextCycle.rst.sample _ _ _).qualified = s.rst.qualified
    rw [qualified_sample, hnext]
  have hpart : (tickWith p s).part = s.part := by show s.nextCycle.part = s.part; rw [hnext]
  have hlatch : (tickWith p s).estopLatch = s.estopLatch := by show s.nextCycle.estopLatch = s.estopLatch; rw [hnext]
  have hhalts : (tickWith p s).halts = s.halts := by show s.nextCycle.halts = s.halts; rw [hnext]
  have hslots : (tickWith p s).slotFields = s.slotFields := by show s.nextCycle.slotFields = s.slotFields; rw [hnext]; rfl
  have haux : (tickWith p s).aux = s.aux := by show s.nextCycle.aux = s.aux; rw [hnext]
  refine ⟨⟨hreset, hpart, hlatch, hhalts, fun c => ?_, slotsSound_congr hslots, fun _ => shrinks_congr hslots⟩, hslots, haux⟩
  rw [chan_tickWith]
  exact .of_state rfl rfl fun h => h.2

/-- While the pin holds the part in reset a cycle leaves the outputs at their reset levels (R171, R172). -/
theorem outputsSound_tickWith {p : Inputs} {s : State} (hs : s.queuesShaped) (hss : s.slotsSound) (ho : s.outputsSound) :
    (tickWith p s).outputsSound := by
  obtain ⟨hc, hslots, haux⟩ := commanded_tickWith p s
  simp only [State.slotFields, Prod.mk.injEq] at hslots
  obtain ⟨_, hopen, hlow⟩ := hslots
  cases hr : s.inReset with
  | false => exact hc.kept.outputs hr hs hss ho
  | true =>
    obtain ⟨hlie, hcalm, hnone, hheld⟩ := ho
    refine ⟨fun h c => ?_, fun h c => ?_, fun h => ?_, fun _ => ?_⟩
    · rw [chan_tickWith]; exact hlie (hc.part ▸ h) c
    · rw [chan_tickWith]; exact hcalm (hc.part ▸ h) c
    · rw [hopen, hlow]; exact hnone (hc.part ▸ h)
    · obtain ⟨ha, hx, hpins⟩ := hheld hr
      refine ⟨haux.trans ha, hlow.trans hx, fun c => ?_⟩
      rw [chan_tickWith]
      exact hpins c

/-- A command's effect and its end. -/
theorem finish_effect_keeps (i : Instr) {s : State} {p : State → Prop}
    (h : ∀ t u, Keeps t u → p t → p u) (hp : p s) : p (finish (effect i s)) :=
  h _ _ (keeps_finish _) (h _ _ (effect_keeps i s) hp)

/-- Settles O8: an entry joins only an open queue with room, and every other change shortens a queue or leaves it. -/
theorem stepKeepsQueuesSound : Obligations.StepKeepsQueuesSound := by
  refine ⟨fun s t hs => step_meets (pre := State.queuesBounded) (fun _ _ _ h => h) (fun _ h => h)
      (fun p s h => (commanded_tickWith p s).1.kept.bounded h)
      (fun i s _ h => finish_effect_keeps i (p := State.queuesBounded) (fun _ _ k => k.bounded) h)
      (fun s _ => (atReset_finish (.changeReset s)).queues.1) hs,
    fun s t hs => step_meets (pre := State.queuesShaped) (fun _ _ _ h => h) (fun _ h => h)
      (fun p s h => (commanded_tickWith p s).1.kept.shaped h)
      (fun i s _ h => finish_effect_keeps i (p := State.queuesShaped) (fun _ _ k => k.shaped) h)
      (fun s _ => (atReset_finish (.changeReset s)).queues.2) hs⟩

/-- Settles O9: a HELD or DISABLED channel takes no order, and what would make it another needs the latch clear. -/
theorem stepKeepsEstopHolding : Obligations.StepKeepsEstopHolding := fun _ _ hs =>
  step_meets (pre := State.estopHolds) (fun _ _ _ h => h) (fun _ h => h)
    (fun p s h => (commanded_tickWith p s).1.kept.estop h)
    (fun i s _ h => finish_effect_keeps i (p := State.estopHolds) (fun _ _ k => k.estop) h)
    (fun s _ hl => by rw [(atReset_finish (.changeReset s)).latch] at hl; cases hl) hs

/-- Settles O10: a stopped channel stays stopped through a command, and its end looks at every pending HALT again. -/
theorem stepKeepsHaltsSettled : Obligations.StepKeepsHaltsSettled := fun _ _ hsh hs =>
  step_meets (pre := fun u => u.queuesShaped ∧ u.haltsSettled) (post := State.haltsSettled) (fun _ _ _ h => h) (fun _ h => h.2)
    (fun p s h => haltsSettled_of h.2 (commanded_tickWith p s).1.halts fun c hc => by rw [chan_tickWith]; exact hc)
    (fun i s _ h => haltsSettled_finish ((effect_keeps i s).halts h.1 h.2))
    (fun s _ => haltsSettled_finish fun x hx => by rw [(AtReset.changeReset s).halts] at hx; cases hx) ⟨hsh, hs⟩

/-- Settles O12: slots open one at a time with members, and a slot in use only gains arrivals until it is released or fails. -/
theorem stepKeepsSlotsSound : Obligations.StepKeepsSlotsSound := fun _ _ hs =>
  step_meets (pre := State.slotsSound) (fun _ _ _ h => h) (fun _ h => h)
    (fun p s h => slotsSound_congr (commanded_tickWith p s).2.1 h)
    (fun i s _ h => finish_effect_keeps i (p := State.slotsSound) (fun _ _ k => k.slots) h)
    (fun s _ => (atReset_finish (.changeReset s)).slotsSound) hs

/-- Settles O13: outside RUNNING no command sets a channel in motion or opens a slot, and the entries to the other part states
stop every channel that moves. -/
theorem stepKeepsOutputsSound : Obligations.StepKeepsOutputsSound := fun _ _ hsh hss hs =>
  step_meets (pre := fun u => u.queuesShaped ∧ u.slotsSound ∧ u.outputsSound) (post := State.outputsSound)
    (fun _ _ _ h => h) (fun _ h => h.2.2)
    (fun p s h => outputsSound_tickWith h.1 h.2.1 h.2.2)
    (fun i s hr h => outputsSound_finish ((effect_keeps i s).outputs hr h.1 h.2.1 h.2.2))
    (fun s _ => (atReset_finish (.changeReset s)).outputsSound) ⟨hsh, hss, hs⟩

end Sys2Proof.Machine
end

section
/-! When each event of the part's own timing has fallen due, and which events a step on an empty queue finds (O2, O3). -/

namespace Sys2Proof.Machine

/-! ### The conditions, one by one -/

/-- An instant has come. -/
theorem reached_iff {now : Nat} {due : Option Nat} : reached now due = true ↔ ∃ instant, due = some instant ∧ instant ≤ now := by
  cases due <;> simp

/-- Microseconds are forty reference cycles each. -/
theorem usCycles_eq (us : Nat) : usCycles us = 40 * us := Nat.mul_comm us 40

theorem reached_dueStep {ch : Channel} {now : Nat} : reached now (dueStep ch) = true ↔
    (ch.state = .running ∨ ch.state = .stopping) ∧ ∃ x, ch.pgn.schedule = some x ∧ x.due ≤ now := by
  unfold dueStep
  cases ch.state <;> cases ch.pgn.schedule <;> simp

theorem reached_dueSettle {ch : Channel} {now : Nat} : reached now (dueSettle ch) = true ↔
    ch.state = .running ∧ ch.pgn.phase = .settle ∧ ∃ instant, ch.pgn.settleEnd = some instant ∧ instant ≤ now := by
  unfold dueSettle
  split
  · rename_i h
    simp [reached_iff, h]
  · rename_i h
    simp only [reached_none, Bool.false_eq_true, false_iff]
    exact fun hn => h ⟨hn.1, hn.2.1⟩

theorem reached_dueSegmentEnd {ch : Channel} {now : Nat} : reached now (dueSegmentEnd ch) = true ↔
    (ch.state = .running ∨ ch.state = .stopping) ∧ ch.pgn.remaining = 0
      ∧ ∃ instant, ch.pgn.lastEnd = some instant ∧ instant ≤ now := by
  unfold dueSegmentEnd
  by_cases hr : ch.pgn.remaining = 0
  · cases ch.state <;> simp [hr, reached_iff]
  · cases ch.state <;> simp [hr]

theorem reached_dueStopRest {ch : Channel} {now : Nat} : reached now (dueStopRest ch) = true ↔
    ch.state = .stopping ∧ ch.pgn.remaining ≠ 0 ∧ ∃ instant, ch.pgn.lastEnd = some instant ∧ instant ≤ now := by
  unfold dueStopRest
  split
  · rename_i h
    simp [reached_iff, h]
  · rename_i h
    simp only [reached_none, Bool.false_eq_true, false_iff]
    exact fun hn => h ⟨hn.1, hn.2.1⟩

theorem reached_dueDwell {ch : Channel} {now : Nat} : reached now (dueDwell ch) = true ↔
    ch.state = .dwelling ∧ ∃ tag duration rest start, ch.queue = .dwell tag duration :: rest ∧ ch.dwellStart = some start
      ∧ start + 40 * duration ≤ now := by
  unfold dueDwell
  split
  · rename_i tag duration rest start hs hq hd
    simp only [reached_some, decide_eq_true_eq, usCycles_eq, hs, hq, hd, true_and]
    constructor
    · exact fun h => ⟨tag, duration, rest, start, rfl, rfl, h⟩
    · rintro ⟨_, _, _, _, he, hd', h⟩
      cases he
      cases hd'
      exact h
  · rename_i hno
    simp only [reached_none, Bool.false_eq_true, false_iff]
    rintro ⟨hs, tag, duration, rest, start, hq, hd, _⟩
    exact hno tag duration rest start hs hq hd

theorem reached_dueExpiry {x : Option Slot} {now : Nat} : reached now (dueExpiry x) = true ↔
    ∃ sl, x = some sl ∧ sl.state ≠ .opened ∧ ∃ instant, sl.expiry = some instant ∧ instant ≤ now := by
  unfold dueExpiry
  cases x with
  | none => simp
  | some sl =>
    simp only [Option.some.injEq, exists_eq_left']
    split
    · rename_i h; simp [h]
    · rename_i h; simp [h, reached_iff]

theorem reached_dueCoalescing {s : State} : reached s.now (dueCoalescing s) = true ↔
    (s.part = .running ∨ s.part = .draining ∨ s.part = .failed) ∧ s.unannounced ≠ 0
      ∧ ∃ first count delay, s.oldest = some first ∧ s.coalescing = some (count, delay) ∧ first + 40 * delay ≤ s.now := by
  have hpart : s.part.coalesces = true ↔ s.part = .running ∨ s.part = .draining ∨ s.part = .failed := by
    cases s.part <;> simp [PartState.coalesces]
  unfold dueCoalescing
  split
  · rename_i first count delay ho hc
    split
    · rename_i h
      rw [hpart] at h
      simp only [reached_some, decide_eq_true_eq, usCycles_eq, h, ho, hc, ne_eq, not_false_eq_true, true_and]
      constructor
      · exact fun hle => ⟨first, count, delay, rfl, rfl, hle⟩
      · rintro ⟨_, _, _, he, he', hle⟩
        cases he
        cases he'
        exact hle
    · rename_i h
      rw [hpart] at h
      simp only [reached_none, Bool.false_eq_true, false_iff]
      exact fun hn => h ⟨hn.1, hn.2.1⟩
  · rename_i hno
    simp only [reached_none, Bool.false_eq_true, false_iff]
    rintro ⟨_, _, first, count, delay, ho, hc, _⟩
    exact hno first count delay ho hc

theorem reached_xsyncDone {run : Option Nat} {now : Nat} :
    reached now (xsyncDone run) = true ↔ ∃ start, run = some start ∧ start + 40 ≤ now := by
  cases run <;> simp [xsyncDone, usCycles_eq, Config.xsyncFilterUs]

/-- The level that a limit qualifier follows (R66). -/
theorem limitTarget_eq (ch : Channel) (input : LimitInput) : ch.limitTarget input
    = if ch.cfg.limitPolarity = .activeHigh then (ch.limit input).level else !(ch.limit input).level := by
  unfold Channel.limitTarget limitActive
  cases ch.cfg.limitPolarity <;> rfl

theorem canFetch_iff {s : State} {ring : Ring} : canFetch s ring = true ↔
    s.part = .running ∧ (s.ring ring).buffer = .empty ∧ (s.ring ring).suspended = false ∧ 1 ≤ (s.ring ring).posted := by
  simp [canFetch, and_assoc]

/-- A SYNCING slot is there exactly while one of the open list is (R88). -/
theorem syncingSlot_isSome {s : State} :
    (syncingSlot? s).isSome = true ↔ ∃ i ∈ s.openList, ∃ sl, s.slots[i] = some sl ∧ sl.state = .syncing := by
  unfold syncingSlot?
  rw [List.find?_isSome]
  refine exists_congr fun i => and_congr_right fun _ => ?_
  cases s.slots[i] <;> simp

/-- There is space in the completion ring (R135, R136). -/
theorem hasSpace_iff {s : State} : s.unretired + 1 < placeSize s.cplPlace ↔ ∃ place, s.cplPlace = some place
    ∧ (s.cplWrite + 2 ^ place.log2 - s.cplRetire) % 2 ^ place.log2 < 2 ^ place.log2 - 1 := by
  unfold State.unretired
  cases s.cplPlace with
  | none => simp [placeSize]
  | some place =>
    simp only [placeSize, Option.some.injEq, exists_eq_left']
    omega

theorem writes_iff {part : PartState} : part.writes = true ↔ part = .running ∨ part = .draining := by
  cases part <;> simp [PartState.writes]

theorem canWrite_iff {s : State} : canWrite s = true ↔
    (s.part = .running ∨ s.part = .draining) ∧ s.writing = none ∧ s.posting ≠ [] ∧ ∃ place, s.cplPlace = some place
      ∧ (s.cplWrite + 2 ^ place.log2 - s.cplRetire) % 2 ^ place.log2 < 2 ^ place.log2 - 1 := by
  rw [← hasSpace_iff, ← writes_iff]
  simp [canWrite, and_assoc]

theorem drained_iff {s : State} : drained s = true ↔
    s.part = .draining ∧ (∀ c, (s.chan c).atRest = true ∧ (s.chan c).pgn.pulseEnd = none)
      ∧ s.mainRing.credits = 0 ∧ s.ctrlRing.credits = 0 ∧ s.posting = [] ∧ s.writing = none := by
  simp [drained, mem_allChans, and_assoc]

/-! ### The events that have fallen due -/

theorem mem_eventIf {b : Bool} {e i : Instr} : e ∈ eventIf b i ↔ b = true ∧ e = i := by
  cases b <;> simp [eventIf]

/-- The ring and the kind that a take names. -/
def takenKind? : Instr → Option (Ring × Option ReqKind)
  | .move ring => some (ring, some .move)
  | .dwell ring => some (ring, some .dwell)
  | .setPosition ring => some (ring, some .setPosition)
  | .mark ring => some (ring, some .mark)
  | .rendezvous ring => some (ring, some .rendezvous)
  | .setProfile ring => some (ring, some .setProfile)
  | .fence ring => some (ring, some .fence)
  | .nop ring => some (ring, some .nop)
  | .halt ring => some (ring, some .halt)
  | .resume ring => some (ring, some .resume)
  | .overrideRate ring => some (ring, some .overrideRate)
  | .cancelRendezvous ring => some (ring, some .cancelRendezvous)
  | .setWatch ring => some (ring, some .setWatch)
  | .clearWatch ring => some (ring, some .clearWatch)
  | .setChannel ring => some (ring, some .setChannel)
  | .query ring => some (ring, some .query)
  | .clearEstop ring => some (ring, some .clearEstop)
  | .badKindRecord ring => some (ring, none)
  | _ => none

/-- A take's command names its ring and its kind. -/
theorem takenKind_takeCommand (ring : Ring) (kind : Option ReqKind) : takenKind? (takeCommand ring kind) = some (ring, kind) := by
  cases kind with
  | none => rfl
  | some k => cases k <;> rfl

theorem mem_takeEvents {s : State} {ring : Ring} {e : Instr} :
    e ∈ takeEvents s ring ↔ ∃ r, takeable s ring = some r ∧ e = takeCommand ring (recReq? r) := by
  unfold takeEvents
  cases takeable s ring <;> simp

/-- Among the takes, exactly the one that the arbiter makes of a record of that kind has fallen due (R123). -/
theorem takeCommand_mem_takeEvents {s : State} {ring other : Ring} {kind : Option ReqKind} :
    takeCommand ring kind ∈ takeEvents s other ↔ ring = other ∧ ∃ r, takeable s other = some r ∧ recReq? r = kind := by
  rw [mem_takeEvents]
  constructor
  · rintro ⟨r, hr, he⟩
    have := congrArg takenKind? he
    rw [takenKind_takeCommand, takenKind_takeCommand] at this
    cases this
    exact ⟨rfl, r, hr, rfl⟩
  · rintro ⟨rfl, r, hr, rfl⟩
    exact ⟨r, hr, rfl⟩

/-- A command that is no take is none of the takes that have fallen due. -/
theorem not_mem_takeEvents {s : State} {ring : Ring} {e : Instr} (h : takenKind? e = none) : e ∉ takeEvents s ring := by
  rw [mem_takeEvents]
  rintro ⟨r, _, rfl⟩
  rw [takenKind_takeCommand] at h
  cases h

/-- Outside the pin reset, what has fallen due: the groups of events. -/
theorem mem_dueEvents {s : State} (h : s.inReset = false) {e : Instr} : e ∈ dueEvents s ↔
    e ∈ rstEvents s ∨ e ∈ ownEvents s ∨ (∃ c, e ∈ chanEvents s c)
      ∨ (∃ i : SlotIx, reached s.now (dueExpiry s.slots[i]) = true ∧ e = .rendezvousExpiry i)
      ∨ (reached s.now (dueCoalescing s) = true ∧ e = .coalescingDelayExpiry)
      ∨ (∃ c, e ∈ limitEvents s c .limp ∨ e ∈ limitEvents s c .limn) ∨ (∃ i, e ∈ captureEvents s i)
      ∨ e ∈ estopEvents s ∨ e ∈ xsyncEvents s := by
  simp [dueEvents, h, List.mem_append, List.mem_flatMap, mem_eventIf, mem_allChans, mem_allSlots, mem_allCaps]

/-- The events of one channel's own timing. -/
theorem mem_chanEvents {s : State} {c : Chan} {e : Instr} : e ∈ chanEvents s c ↔
    (reached s.now (dueStep (s.chan c)) = true ∧ e = .stepEmission c)
      ∨ (reached s.now (dueSettle (s.chan c)) = true ∧ e = .settleEnd c)
      ∨ (reached s.now (duePulse (s.chan c)) = true ∧ e = .pulseEnd c)
      ∨ (reached s.now (dueSegmentEnd (s.chan c)) = true ∧ e = .segmentEnd c)
      ∨ (reached s.now (dueStopRest (s.chan c)) = true ∧ e = .stopRest c)
      ∨ (reached s.now (dueDwell (s.chan c)) = true ∧ e = .dwellExpiry c) := by
  simp [chanEvents, mem_eventIf]

theorem mem_ownEvents {s : State} {e : Instr} : e ∈ ownEvents s ↔
    (canFetch s .ctrl = true ∧ e = .fetchBegin .ctrl) ∨ (canFetch s .main = true ∧ e = .fetchBegin .main)
      ∨ e ∈ takeEvents s .ctrl ∨ e ∈ takeEvents s .main
      ∨ (canWrite s = true ∧ e = .completionWriteBegin) ∨ (drained s = true ∧ e = .drainComplete) := by
  simp [ownEvents, mem_eventIf]

theorem mem_rstEvents {s : State} {e : Instr} : e ∈ rstEvents s ↔
    s.rstCompletes = true ∧ e = if s.rst.qualified then .pinResetRelease else .pinResetAssert := mem_eventIf

theorem mem_estopEvents {s : State} {e : Instr} : e ∈ estopEvents s ↔
    s.estopCompletes = true ∧ e = if s.estop.qualified then .estopNegation else .estopAssertion := mem_eventIf

theorem mem_limitEvents {s : State} {c : Chan} {input : LimitInput} {e : Instr} : e ∈ limitEvents s c input ↔
    (s.chan c).limitCompletes input s.now = true
      ∧ e = .limitQualifiedChange c input (!((s.chan c).limit input).qualified) := mem_eventIf

theorem mem_captureEvents {s : State} {i : CapIx} {e : Instr} : e ∈ captureEvents s i ↔
    s.captureCompletes i = true ∧ e = .qualifiedEdge i (!(s.caps[i]).qualified) := mem_eventIf

theorem mem_xsyncEvents {s : State} {e : Instr} : e ∈ xsyncEvents s ↔
    ((syncingSlot? s).isSome = true ∧ reached s.now (xsyncDone s.xsyncRun) = true) ∧ e = .xsyncQualified := by
  unfold xsyncEvents
  rw [mem_eventIf, Bool.and_eq_true]

/-- Which events have fallen due, in one disjunction over the groups, takes aside. -/
theorem due_iff {s : State} (h : s.inReset = false) {e : Instr} (he : takenKind? e = none) : e ∈ dueEvents s ↔
    (s.rstCompletes = true ∧ e = .pinResetAssert)
      ∨ (canFetch s .ctrl = true ∧ e = .fetchBegin .ctrl) ∨ (canFetch s .main = true ∧ e = .fetchBegin .main)
      ∨ (canWrite s = true ∧ e = .completionWriteBegin) ∨ (drained s = true ∧ e = .drainComplete)
      ∨ (∃ c, (reached s.now (dueStep (s.chan c)) = true ∧ e = .stepEmission c)
        ∨ (reached s.now (dueSettle (s.chan c)) = true ∧ e = .settleEnd c)
        ∨ (reached s.now (duePulse (s.chan c)) = true ∧ e = .pulseEnd c)
        ∨ (reached s.now (dueSegmentEnd (s.chan c)) = true ∧ e = .segmentEnd c)
        ∨ (reached s.now (dueStopRest (s.chan c)) = true ∧ e = .stopRest c)
        ∨ (reached s.now (dueDwell (s.chan c)) = true ∧ e = .dwellExpiry c))
      ∨ (∃ i : SlotIx, reached s.now (dueExpiry s.slots[i]) = true ∧ e = .rendezvousExpiry i)
      ∨ (reached s.now (dueCoalescing s) = true ∧ e = .coalescingDelayExpiry)
      ∨ (∃ c input, (s.chan c).limitCompletes input s.now = true
        ∧ e = .limitQualifiedChange c input (!((s.chan c).limit input).qualified))
      ∨ (∃ i, s.captureCompletes i = true ∧ e = .qualifiedEdge i (!(s.caps[i]).qualified))
      ∨ (s.estopCompletes = true ∧ s.estop.qualified = true ∧ e = .estopNegation)
      ∨ (s.estopCompletes = true ∧ s.estop.qualified = false ∧ e = .estopAssertion)
      ∨ ((syncingSlot? s).isSome = true ∧ reached s.now (xsyncDone s.xsyncRun) = true) ∧ e = .xsyncQualified := by
  have hr : s.rst.qualified = false := h
  have hlimits : (∃ c input, (s.chan c).limitCompletes input s.now = true
      ∧ e = .limitQualifiedChange c input (!((s.chan c).limit input).qualified))
      ↔ ∃ c, e ∈ limitEvents s c .limp ∨ e ∈ limitEvents s c .limn := by
    simp only [mem_limitEvents]
    refine exists_congr fun c => ⟨?_, ?_⟩
    · rintro ⟨input, hi⟩
      cases input <;> [exact .inl hi; exact .inr hi]
    · rintro (hi | hi) <;> exact ⟨_, hi⟩
  have hestop : e ∈ estopEvents s ↔ (s.estopCompletes = true ∧ s.estop.qualified = true ∧ e = .estopNegation)
      ∨ (s.estopCompletes = true ∧ s.estop.qualified = false ∧ e = .estopAssertion) := by
    rw [mem_estopEvents]
    cases s.estop.qualified <;> simp
  rw [hlimits, mem_dueEvents h]
  simp only [mem_rstEvents, mem_ownEvents, mem_chanEvents, mem_captureEvents, hestop, mem_xsyncEvents, hr,
    not_mem_takeEvents he, false_or, Bool.false_eq_true, if_false, or_assoc]

end Sys2Proof.Machine
end

section
/-! A step on an empty queue: the events that have fallen due, or one cycle with its samples (O2, O3). -/

namespace Sys2Proof.Machine

/-- A qualified change of a Bool is to the one other value. -/
theorem eq_not_iff_ne {a b : Bool} : b = !a ↔ a ≠ b := by cases a <;> cases b <;> decide

/-- A qualified change of a limit input has fallen due (R66). -/
theorem due_limit {s : State} (h : s.inReset = false) (c : Chan) (input : LimitInput) (active : Bool) :
    .limitQualifiedChange c input active ∈ dueEvents s ↔
      (s.chan c).limitCompletes input s.now = true ∧ ((s.chan c).limit input).qualified ≠ active := by
  rw [due_iff h rfl, ← eq_not_iff_ne]
  simp

/-- A qualified edge of a capture input has fallen due (R108). -/
theorem due_edge {s : State} (h : s.inReset = false) (i : CapIx) (rise : Bool) :
    .qualifiedEdge i rise ∈ dueEvents s ↔ s.captureCompletes i = true ∧ (s.caps[i]).qualified ≠ rise := by
  rw [due_iff h rfl, ← eq_not_iff_ne]
  simp

/-- A take has fallen due exactly where the arbiter makes it (R123). -/
theorem due_take {s : State} (h : s.inReset = false) (ring : Ring) (kind : Option ReqKind) :
    takeCommand ring kind ∈ dueEvents s ↔ ∃ r, takeable s ring = some r ∧ recReq? r = kind := by
  have other : ∀ {e : Instr}, takenKind? e = none → takeCommand ring kind ≠ e := by
    rintro e he rfl
    rw [takenKind_takeCommand] at he
    cases he
  have hestop : takeCommand ring kind ≠ if s.estop.qualified then .estopNegation else .estopAssertion :=
    other (by cases s.estop.qualified <;> rfl)
  have hrst : takeCommand ring kind ≠ if s.rst.qualified then .pinResetRelease else .pinResetAssert :=
    other (by cases s.rst.qualified <;> rfl)
  rw [mem_dueEvents h, mem_ownEvents]
  simp only [mem_rstEvents, mem_chanEvents, mem_limitEvents, mem_captureEvents, mem_estopEvents, mem_xsyncEvents, hestop, hrst,
    and_false, false_or, or_false, exists_const, other (e := .fetchBegin _) rfl, other (e := .completionWriteBegin) rfl,
    other (e := .drainComplete) rfl, other (e := .stepEmission _) rfl, other (e := .settleEnd _) rfl,
    other (e := .pulseEnd _) rfl, other (e := .segmentEnd _) rfl, other (e := .stopRest _) rfl, other (e := .dwellExpiry _) rfl,
    other (e := .rendezvousExpiry _) rfl, other (e := .coalescingDelayExpiry) rfl,
    other (e := .limitQualifiedChange _ _ _) rfl, other (e := .qualifiedEdge _ _) rfl, other (e := .xsyncQualified) rfl,
    takeCommand_mem_takeEvents]
  cases ring <;> simp

/-- No write of the register window falls due. -/
theorem not_due_windowWrite {s : State} (h : s.inReset = false) {e : Instr} (he : e.windowWrite ≠ none) : e ∉ dueEvents s := by
  have hkind : takenKind? e = none := by cases e <;> simp_all [takenKind?, Instr.windowWrite]
  rw [due_iff h hkind]
  intro hdue
  cases e <;> simp_all [Instr.windowWrite]

/-- Settles O3: each event by the condition of its own group, and no other command is in any group. -/
theorem eventsFallDue : Obligations.EventsFallDue := by
  intro s
  refine ⟨fun h e => ?_, fun h => ?_⟩
  · have hq : s.rst.qualified = true := h
    have hdue : e ∈ dueEvents s ↔ e ∈ rstEvents s := by simp [dueEvents, h]
    exact hdue.trans (mem_rstEvents.trans (by rw [hq]; exact and_comm))
  refine ⟨fun c => ⟨(due_iff h rfl).trans ?_, (due_iff h rfl).trans ?_, (due_iff h rfl).trans ?_, (due_iff h rfl).trans ?_,
      (due_iff h rfl).trans ?_, (due_iff h rfl).trans ?_, fun input active => (due_limit h c input active).trans ?_⟩,
    due_edge h, (due_iff h rfl).trans ?_, (due_iff h rfl).trans ?_, (due_iff h rfl).trans ?_, ?_, (due_iff h rfl).trans ?_,
    fun i => (due_iff h rfl).trans ?_, (due_iff h rfl).trans ?_, fun ring => (due_iff h rfl).trans ?_, due_take h,
    (due_iff h rfl).trans ?_, (due_iff h rfl).trans ?_, fun e => not_due_windowWrite h, ?_, ?_, fun ring read data => ?_,
    fun write => ?_, fun read block => ?_⟩
  · simp [reached_dueStep]
  · simp [reached_dueSettle]
  · simp [duePulse, reached_iff]
  · simp [reached_dueSegmentEnd]
  · simp [reached_dueStopRest]
  · simp [reached_dueDwell]
  · rw [Channel.limitCompletes, limitTarget_eq]
  · simp [State.estopCompletes, Config.estopFilterUs]
  · simp [State.estopCompletes, Config.estopFilterUs]
  · simp [State.rstCompletes, Config.rstFilterUs]
  · simp [due_iff h (e := .pinResetRelease) rfl]
  · simp [syncingSlot_isSome, reached_xsyncDone]
  · simp [reached_dueExpiry]
  · simp [reached_dueCoalescing]
  · cases ring <;> simp [canFetch_iff]
  · simp [canWrite_iff]
  · simp [drained_iff]
  · simp [due_iff h (e := .conventionalReset) rfl]
  · simp [due_iff h (e := .functionLevelReset) rfl]
  · simp [due_iff h (e := .fetchDone ring read data) rfl, due_iff h (e := .fetchFault ring read) rfl]
  · simp [due_iff h (e := .completionWriteDone write) rfl, due_iff h (e := .completionWriteFault write) rfl]
  · simp [due_iff h (e := .setupReadDone read block) rfl, due_iff h (e := .setupReadFail read) rfl]

/-! ### One cycle -/

/-- What one cycle does to the clock (R157). -/
theorem nextCycle_spec (s : State) (h : s.clockPart < Config.cyclesPerUs) :
    s.nextCycle = { s with now := s.now + 1, clock := s.nextCycle.clock, clockPart := s.nextCycle.clockPart }
      ∧ (s.part.counting = true → s.clockPart = 39 → s.nextCycle.clock = s.clock + 1 ∧ s.nextCycle.clockPart = 0)
      ∧ (s.part.counting = true → s.clockPart ≠ 39 → s.nextCycle.clock = s.clock ∧ s.nextCycle.clockPart = s.clockPart + 1)
      ∧ (s.part.counting = false → s.nextCycle.clock = s.clock ∧ s.nextCycle.clockPart = s.clockPart) := by
  unfold State.nextCycle
  have hforty : Config.cyclesPerUs = 40 := rfl
  split
  · rename_i hc
    simp only [Bool.not_eq_true'] at hc
    exact ⟨rfl, fun hn => absurd hn (by simp [hc]), fun hn => absurd hn (by simp [hc]), fun _ => ⟨rfl, rfl⟩⟩
  · rename_i hc
    simp only [Bool.not_eq_true', Bool.not_eq_false] at hc
    split
    · exact ⟨rfl, fun _ _ => by omega, fun _ _ => ⟨rfl, rfl⟩, fun hn => absurd hn (by simp [hc])⟩
    · exact ⟨rfl, fun _ _ => ⟨rfl, rfl⟩, fun _ _ => by omega, fun hn => absurd hn (by simp [hc])⟩

/-- One sample of a qualifier: it holds the level sampled, and notes the instant where that changes. -/
theorem sample_spec (q : Qual) (target level : Bool) (now : Nat) :
    let r := q.sample target level now
    r.level = level ∧ r.qualified = q.qualified ∧ (q.level = level → r = q)
      ∧ (q.level ≠ level → r.since = now ∧ r.before = if q.qualified = target then none else some q.since) := by
  refine ⟨level_sample .., qualified_sample .., fun h => sample_same h .., fun h => ?_⟩
  simp [Qual.sample, h]

/-- When a qualifier completes a change: its level has called for it for the filter time, or had just done so as it turned back. -/
theorem completes_iff (q : Qual) (target : Bool) (filterUs now : Nat) : q.completes target filterUs now = true ↔
    (q.qualified ≠ target ∧ q.since + 40 * filterUs ≤ now)
      ∨ (q.since = now ∧ ∃ first, q.before = some first ∧ first + 40 * filterUs ≤ now) := by
  simp [Qual.completes, usCycles_eq, reached_iff]

/-- The run of high readings of XSYNC after one more sample (R89, R177). -/
theorem sampleXsync_spec (syncing high : Bool) (run : Option Nat) (now : Nat) :
    (syncing = false → sampleXsync syncing high run now = none)
      ∧ (syncing = true → high = true → sampleXsync syncing high run now = some (run.getD now))
      ∧ (syncing = true → high = false →
        (∀ start, run = some start → start + 40 ≤ now → sampleXsync syncing high run now = some start)
        ∧ ((∀ start, run = some start → now < start + 40) → sampleXsync syncing high run now = none)) := by
  unfold sampleXsync
  refine ⟨fun h => by simp [h], fun h1 h2 => by simp [h1, h2], fun h1 h2 => ⟨fun start hs hle => ?_, fun hlt => ?_⟩⟩
  · have : reached now (xsyncDone run) = true := reached_xsyncDone.mpr ⟨start, hs, hle⟩
    subst hs
    simp only [h1, h2, this, Bool.not_true, Bool.false_eq_true, if_false, if_true]
  · have : reached now (xsyncDone run) = false := by
      rw [Bool.eq_false_iff, ne_eq, reached_xsyncDone]
      rintro ⟨start, hs, hle⟩
      exact absurd (hlt start hs) (by omega)
    simp [h1, h2, this]

/-- What a step finds on an empty queue (log entries 1 and 4). -/
theorem step_idle {s : State} (h : s.pending = []) :
    (dueEvents s = [] → step s = .next (tickWith (Config.inputs s.now) s))
      ∧ (∀ e, dueEvents s = [e] → step s = .next { s with pending := [e] })
      ∧ (2 ≤ (dueEvents s).length →
        ∃ e ∈ dueEvents s, step s = .next { s with pending := [e], choices := s.choices + 1 }) := by
  have hstep : step s = .next (idle s) := by simp [step, h]
  refine ⟨fun hd => by rw [hstep]; simp [idle, hd], fun e hd => by rw [hstep]; simp [idle, hd], fun hlen => ?_⟩
  match hd : dueEvents s with
  | [] => simp [hd] at hlen
  | [e] => simp [hd] at hlen
  | e :: f :: rest =>
    have hlt : Config.eventChoice s.choices % (e :: f :: rest).length < (e :: f :: rest).length :=
      Nat.mod_lt _ (by simp)
    refine ⟨(e :: f :: rest).getD (Config.eventChoice s.choices % (e :: f :: rest).length) e, ?_, ?_⟩
    · rw [List.getD_eq_getElem _ _ hlt]
      exact List.getElem_mem hlt
    · rw [hstep]
      simp only [idle, hd]

/-- Settles O2: what has fallen due is put in the queue, and else one cycle passes with one sample of every input. -/
theorem emptyQueueRunsTheClock : Obligations.EmptyQueueRunsTheClock := by
  refine ⟨fun s h => step_idle h, fun p s hc => ?_, completes_iff⟩
  obtain ⟨hnext, hcarry, hcount, hrest⟩ := nextCycle_spec s hc
  have hnow : s.nextCycle.now = s.now + 1 := by rw [hnext]
  have hsync : syncingSlot? s.nextCycle = syncingSlot? s := by rw [hnext]; rfl
  have hlow : s.nextCycle.xsyncLow = s.xsyncLow := by rw [hnext]
  have hrun : s.nextCycle.xsyncRun = s.xsyncRun := by rw [hnext]
  have hxsync : (tickWith p s).xsyncRun
      = sampleXsync (syncingSlot? s).isSome (p.xsyncOthers && !s.xsyncLow) s.xsyncRun (s.now + 1) := by
    rw [← hsync, ← hlow, ← hrun, ← hnow]
    rfl
  obtain ⟨hidle, hhigh, hturn⟩ := sampleXsync_spec (syncingSlot? s).isSome (p.xsyncOthers && !s.xsyncLow) s.xsyncRun (s.now + 1)
  rw [← hxsync] at hidle hhigh hturn
  have hhi : (p.xsyncOthers && !s.xsyncLow) = true ↔ p.xsyncOthers = true ∧ s.xsyncLow = false := by simp
  refine ⟨hnow, fun c => ⟨?_, ?_, ?_⟩, fun i => ?_, ?_, ?_, rfl, rfl, fun h => hidle (by simpa using h),
    fun h1 h2 => hhigh h1 (hhi.mpr h2), fun h1 h2 => hturn h1 (Bool.eq_false_iff.mpr fun h => h2 (hhi.mp h)),
    hcarry, hcount, hrest, ?_⟩
  · rw [chan_tickWith, hnow]
    exact sample_spec (s.chan c).limp _ _ _
  · rw [chan_tickWith, hnow]
    exact sample_spec (s.chan c).limn _ _ _
  · rw [chan_tickWith]
    rfl
  · rw [caps_tickWith, hnow]
    exact sample_spec s.caps[i] _ _ _
  · have : (tickWith p s).estop = s.estop.sample (!s.estop.level) (p.estopN.getD false) (s.now + 1) := by
      show s.nextCycle.estop.sample (!s.nextCycle.estop.level) _ s.nextCycle.now = _
      rw [hnext]
      rfl
    rw [this]
    exact sample_spec _ _ _ _
  · have : (tickWith p s).rst = s.rst.sample (!s.rst.level) (p.rstN.getD true) (s.now + 1) := by
      show s.nextCycle.rst.sample (!s.nextCycle.rst.level) _ s.nextCycle.now = _
      rw [hnext]
      rfl
    rw [this]
    exact sample_spec _ _ _ _
  · have : tickWith p s = { s.nextCycle with
        now := (tickWith p s).now, clock := (tickWith p s).clock, clockPart := (tickWith p s).clockPart
        chans := (tickWith p s).chans, caps := (tickWith p s).caps, estop := (tickWith p s).estop
        rst := (tickWith p s).rst, xsync := (tickWith p s).xsync, xsyncRun := (tickWith p s).xsyncRun
        msiEnabled := (tickWith p s).msiEnabled } := rfl
    rw [this]
    generalize tickWith p s = t
    rw [hnext]

end Sys2Proof.Machine
end

section
/-! Writes of the register window that change no channel, and the resets (O38, O39, O41). -/

namespace Sys2Proof.Machine

/-! ### Plain writes and writes of indices -/

/-- The window ignores the writes that R182 says it ignores. -/
theorem writeWindow_ignored {offset : BitVec 6} {enables : BitVec 4} (h : windowWriteIgnored offset enables = true) (v : Word)
    (s : State) : writeWindow offset enables v s = s := by
  unfold writeWindow
  by_cases he : enables = 15
  · subst he
    simp only [windowWriteIgnored, bne_self_eq_false, Bool.false_or, Bool.or_eq_true, beq_iff_eq, decide_eq_true_eq] at h
    have key : ∀ taken : BitVec 6, taken ≠ 20 → taken ≠ 28 → taken ≠ 32 → taken.toNat < 44 → offset ≠ taken := by
      rintro _ h1 h2 h3 h4 rfl
      rcases h with ((h | h) | h) | h
      · exact h1 h
      · exact h2 h
      · exact h3 h
      · omega
    rw [if_neg (by simp), if_neg (key 0 (by decide) (by decide) (by decide) (by decide)),
      if_neg (key 4 (by decide) (by decide) (by decide) (by decide)), if_neg (key 8 (by decide) (by decide) (by decide) (by decide)),
      if_neg (key 12 (by decide) (by decide) (by decide) (by decide)),
      if_neg (key 16 (by decide) (by decide) (by decide) (by decide)),
      if_neg (key 24 (by decide) (by decide) (by decide) (by decide)),
      if_neg (key 36 (by decide) (by decide) (by decide) (by decide)),
      if_neg (key 40 (by decide) (by decide) (by decide) (by decide))]
  · rw [if_pos he]

/-- What a command answers that leaves a given state with the pending HALTs settled: that state, but for the stall cause shown and
the interrupt request. -/
theorem answers_becomes {s u : State} {f : State → State} (h : s.inReset = false) (hf : f s = u) (hu : u.haltsSettled) :
    Answers (outcome s f) fun t => t = { u with stall := t.stall, irq := t.irq, messages := t.messages } := by
  subst hf
  exact answers_settled h f _ hu fun _ _ _ => rfl

/-- Index writes are judged in service (R113, R135). -/
theorem judgesIndices_iff {part : PartState} :
    part.judgesIndices = true ↔ part = .running ∨ part = .draining ∨ part = .failed := by
  cases part <;> simp [PartState.judgesIndices]

/-- Settles O38: each of these writes is one field, and the pending HALTs stand as they were. -/
theorem plainRegisterWrites : Obligations.PlainRegisterWrites := by
  intro s h hs
  refine ⟨fun v => ?_, fun v => ?_, fun v => ?_, fun v hv => ?_, fun v => ⟨rfl, fun hv => ?_⟩, fun offset enables v hwf => ?_⟩
  · exact answers_becomes (f := fun s => { s with setupLo := v }) h rfl hs
  · exact answers_becomes (f := fun s => { s with setupHi := v }) h rfl hs
  · refine answers_settled h (writeIntCause v) _ hs fun _ _ _ => ⟨fun i => ?_, rfl⟩
    simp [writeIntCause]
  · exact answers_becomes (f := writeStat v) h (if_pos hv) hs
  · exact answers_nothing h hs (if_neg (by rw [hv]; decide) : writeStat v s = s)
  · have hi : windowWriteIgnored offset enables = true := by
      simp only [Instr.wf, Bool.and_eq_true] at hwf
      exact hwf.2
    exact answers_nothing h hs (writeWindow_ignored hi v s)

theorem writePost_taken {ring : Ring} {v : Word} {s : State} (hj : s.part.judgesIndices = true)
    (hlt : v.toNat < placeSize (s.ring ring).place) :
    writePost ring v s = s.setRing ring { s.ring ring with post := v.toNat, suspended := false } := by
  rw [writePost, if_pos hj, if_pos hlt]

theorem writePost_error {ring : Ring} {v : Word} {s : State} (hj : s.part.judgesIndices = true)
    (hle : placeSize (s.ring ring).place ≤ v.toNat) : writePost ring v s = { s with indexError := true } := by
  rw [writePost, if_pos hj, if_neg (Nat.not_lt.mpr hle)]

theorem writeRetire_taken {v : Word} {s : State} (hj : s.part.judgesIndices = true) (hlt : v.toNat < placeSize s.cplPlace) :
    writeRetire v s = { s with cplRetire := v.toNat } := by
  rw [writeRetire, if_pos hj, if_pos hlt]

theorem writeRetire_error {v : Word} {s : State} (hj : s.part.judgesIndices = true) (hle : placeSize s.cplPlace ≤ v.toNat) :
    writeRetire v s = { s with indexError := true } := by
  rw [writeRetire, if_pos hj, if_neg (Nat.not_lt.mpr hle)]

/-- Settles O39: a write of an index by the part state and the ring's size. -/
theorem indexWritesAreJudged : Obligations.IndexWritesAreJudged := by
  intro s v h hs
  refine ⟨fun hj hlt => ?_, fun hj hle => ?_, fun hj hlt => ?_, fun hj hle => ?_, fun hj hlt => ?_, fun hj hle => ?_,
    fun hj => ?_⟩
  · exact answers_becomes (f := writePost .main v) h (writePost_taken (judgesIndices_iff.mpr hj) hlt) hs
  · exact answers_becomes (f := writePost .main v) h (writePost_error (judgesIndices_iff.mpr hj) hle) hs
  · exact answers_becomes (f := writePost .ctrl v) h (writePost_taken (judgesIndices_iff.mpr hj) hlt) hs
  · exact answers_becomes (f := writePost .ctrl v) h (writePost_error (judgesIndices_iff.mpr hj) hle) hs
  · exact answers_becomes (f := writeRetire v) h (writeRetire_taken (judgesIndices_iff.mpr hj) hlt) hs
  · exact answers_becomes (f := writeRetire v) h (writeRetire_error (judgesIndices_iff.mpr hj) hle) hs
  · have hno : ¬s.part.judgesIndices = true := fun hn => hj (judgesIndices_iff.mp hn)
    exact ⟨answers_nothing h hs (if_neg hno : writePost .main v s = s), answers_nothing h hs (if_neg hno : writePost .ctrl v s = s),
      answers_nothing h hs (if_neg hno : writeRetire v s = s)⟩

/-! ### Resets -/

/-- At the end of a command that leaves no HALT pending, nothing held and no cause set, nothing is left to do. -/
theorem finish_of_idle {s : State} (hh : s.halts = []) (hb : s.mainRing.buffer = .empty) (hst : s.stall = .none)
    (hc : s.intCause = 0) (hi : s.irq = false) : finish s = s := by
  have hsweep : sweepHalts s = s := by
    rw [sweepHalts_eq]
    simp only [haltsLeft, haltsDone, hh, List.filter_nil, List.map_nil, List.append_nil]
    rw [← hh]
  have hjudge : rejudge s = s := by
    unfold rejudge
    have hheld : heldRecord s .main = none := by simp [heldRecord, State.ring, hb]
    rw [hheld]
    simp only
    rw [← hst]
  unfold finish
  rw [hsweep, hjudge]
  have hquiet : (s.intCause != 0 && s.intEnable) = false := by simp [hc]
  unfold refreshIrq
  simp only [hquiet, Bool.false_and, Bool.false_eq_true, if_false]
  rw [← hi]

/-- What a reset leaves, in one equation (R168, R169). -/
theorem resetPart_spec (s : State) :
    (∀ c : Chan, (resetPart s).chan c = Channel.reset
        { (s.chan c).limp with before := none, qualified := !(s.chan c).limp.level }
        { (s.chan c).limn with before := none, qualified := !(s.chan c).limn.level })
      ∧ (∀ i : CapIx, (resetPart s).caps[i] = { s.caps[i] with before := none, qualified := s.caps[i].level }) := by
  refine ⟨fun c => ?_, fun i => ?_⟩
  · show (updateAll allChans (fun _ ch => resetChannel ch) s.chans)[c] = _
    rw [updateAll_get _ (by decide), if_pos (mem_allChans c)]
    rfl
  · show (updateAll allCaps (fun _ q => q.take q.level) s.caps)[i] = _
    rw [updateAll_get _ (by decide), if_pos (mem_allCaps i)]
    rfl

theorem finish_resetPart (s : State) : finish (resetPart s) = resetPart s := finish_of_idle rfl rfl rfl rfl rfl

/-- Settles O41: a reset is `resetPart` of the state with its RST# qualifier, and its end finds nothing left to do. -/
theorem resetsRestoreEveryBlock : Obligations.ResetsRestoreEveryBlock := by
  refine ⟨fun s => ⟨fun h => ⟨?_, ?_, fun hp => ?_, fun hp hs => ?_, fun v hv => ?_⟩, fun h hp => ?_, fun hno => ?_⟩,
    fun c s h hc => ?_⟩
  · refine ⟨_, outcome_awake h resetPart, ?_⟩
    rw [finish_resetPart]
    exact ⟨⟨(resetPart_spec s).1, (resetPart_spec s).2, rfl⟩, rfl, rfl, rfl⟩
  · refine ⟨_, outcome_awake h resetPart, ?_⟩
    rw [finish_resetPart]
    exact ⟨⟨(resetPart_spec s).1, (resetPart_spec s).2, rfl⟩, rfl, rfl, rfl⟩
  · have hq : s.rst.change = { s.rst with before := none, qualified := true } := by
      have : s.rst.qualified = false := h
      simp [Qual.change, this]
    have hdone : s.rstCompletes = true := hp
    have hexec : exec .pinResetAssert s = .next (finish (changeReset s)) := by
      show execPinResetAssert s = _
      simp [execPinResetAssert, outcome, h, hdone]
    refine ⟨_, hexec, ?_⟩
    rw [changeReset, finish_resetPart, hq]
    exact ⟨⟨(resetPart_spec s).1, (resetPart_spec s).2, rfl⟩, rfl, rfl, rfl⟩
  · have hdone : ¬s.rstCompletes = true := hp
    exact answers_nothing (f := fun s => if s.rstCompletes then changeReset s else s) h hs (if_neg hdone)
  · have hw : writeWindow 0 15 v s = softResetPart s := if_pos hv
    refine ⟨_, outcome_awake h (writeWindow 0 15 v), ?_⟩
    rw [hw, finish_of_idle (s := softResetPart s) rfl rfl rfl rfl rfl]
    exact ⟨⟨(resetPart_spec s).1, (resetPart_spec s).2, rfl⟩, rfl, rfl, rfl⟩
  · have hdone : s.rstCompletes = true := hp
    have hq : s.rst.change = { s.rst with before := none, qualified := false } := by
      have : s.rst.qualified = true := h
      simp [Qual.change, this]
    have hexec : exec .pinResetRelease s = .next (finish (changeReset s)) := by
      show execPinResetRelease s = _
      simp [execPinResetRelease, h, hdone]
    refine ⟨_, hexec, ?_⟩
    rw [changeReset, finish_resetPart, hq]
    exact ⟨⟨(resetPart_spec s).1, (resetPart_spec s).2, rfl⟩, rfl, rfl, rfl⟩
  · have hguard : (s.inReset && s.rstCompletes) = false := by
      rw [Bool.eq_false_iff, ne_eq, Bool.and_eq_true]
      exact hno
    show execPinResetRelease s = _
    simp [execPinResetRelease, hguard]
  · rw [exec_eq_outcome hc]
    simp [outcome, h]

end Sys2Proof.Machine
end

section
/-! The other timers, the fetches and the end of a drain (O54, O55, O59). -/

namespace Sys2Proof.Machine

/-- Settled HALTs stay so where one channel changes and does not come to rest. -/
theorem haltsSettled_of_chan {s t : State} (h : s.haltsSettled) (hh : t.halts = s.halts) {c : Chan}
    (ho : ∀ d, d ≠ c → t.chan d = s.chan d) (hc : (s.chan c).comingToRest = true → (t.chan c).comingToRest = true) :
    t.haltsSettled := by
  refine haltsSettled_of h hh fun d hd => ?_
  by_cases he : d = c
  · subst he; exact hc hd
  · rwa [ho d he]

/-- A timed event before its instant changes nothing but the stall cause shown and the interrupt request. -/
theorem answers_early {s : State} {due : Option Nat} (h : s.inReset = false) (hs : s.haltsSettled) (f : State → State)
    (hd : ¬reached s.now due = true) :
    Answers (outcome s (atDue due f)) fun t => t = { s with stall := t.stall, irq := t.irq, messages := t.messages } :=
  answers_nothing h hs (atDue_early (by simpa using hd) f)

/-- A timed event at its instant. -/
theorem outcome_due {s : State} {due : Option Nat} (h : s.inReset = false) (hd : reached s.now due = true) (f : State → State) :
    outcome s (atDue due f) = .next (finish (f s)) := by
  rw [outcome_awake h, atDue_reached hd]

/-! ### DWELL and the coalescing delay -/

/-- A DWELL's timer expires: it completes, and the entries behind it run (R16). -/
theorem takeDwellExpiry_eq {s : State} {c : Chan} {tag : Word} {duration : Nat} {rest : List Entry}
    (hq : (s.chan c).queue = .dwell tag duration :: rest) :
    takeDwellExpiry c s = (runHead c rest { s.setChan c { s.chan c with dwellStart := none } with
      posting := s.posting ++ [s.done .main ReqKind.dwell.code tag .ok .clear (chanByte c) (s.position c)
        (auxNat duration) 0] }).settle := by
  have hpos : (s.setChan c { s.chan c with dwellStart := none }).position c = s.position c := by
    simp [State.position]
  unfold takeDwellExpiry
  split
  · rename_i heq
    rw [hq] at heq
    cases heq
    simp only [State.modChan, State.entryDone, hpos]
    rfl
  · rename_i hne
    exact absurd hq (hne _ _ _)

/-- A channel with no entry left becomes IDLE, and sends nothing (R9). -/
theorem settle_runHead_nil (c : Chan) (s : State) : (runHead c [] s).settle = s.setChan c ((s.chan c).emptied .idle) := rfl

/-- Settles O54: a timer acts at its instant alone, by its own condition. -/
theorem timersExpire : Obligations.TimersExpire := by
  intro s h hs
  refine ⟨fun c => ⟨fun hearly => ?_, fun tag duration rest start hst hq hd hle => ?_⟩,
    fun first count delay ho hc hu hp => ⟨fun hle => ?_, fun hlt => ?_⟩, fun hno => ?_⟩
  · refine answers_early h hs _ fun hr => ?_
    obtain ⟨hst, tag, duration, rest, start, hq, hd, hle⟩ := reached_dueDwell.mp hr
    exact absurd (hearly tag duration rest start hst hq hd) (Nat.not_lt.mpr hle)
  · have hexec : exec (.dwellExpiry c) s = _ :=
      outcome_due h (reached_dueDwell.mpr ⟨hst, tag, duration, rest, start, hq, hd, hle⟩) (takeDwellExpiry c)
    rw [takeDwellExpiry_eq hq] at hexec
    refine ⟨hexec, fun hrest => ⟨_, hexec, ?_⟩⟩
    subst hrest
    rw [settle_runHead_nil, finish_settled]
    · refine ⟨?_, rfl, fun d hne => ?_, rfl⟩
      · simp [State.chan, State.setChan, Channel.emptied]
      · simp [State.chan, State.setChan, Fin.val_ne_of_ne hne.symm]
    · refine haltsSettled_of_chan (c := c) hs rfl (fun d hne => ?_) fun hc => ?_
      · simp [State.chan, State.setChan, Fin.val_ne_of_ne hne.symm]
      · simp [Channel.comingToRest, hst] at hc
  · refine answers_becomes (f := atDue (dueCoalescing s) announce) h (atDue_reached ?_ _) hs
    exact reached_dueCoalescing.mpr ⟨hp, hu, first, count, delay, ho, hc, hle⟩
  · refine answers_early h hs _ fun hr => ?_
    obtain ⟨_, _, first', count', delay', ho', hc', hle⟩ := reached_dueCoalescing.mp hr
    rw [ho] at ho'
    rw [hc] at hc'
    cases ho'
    cases hc'
    omega
  · refine answers_early h hs _ fun hr => ?_
    obtain ⟨hp, hu, first, count, delay, ho, hc, _⟩ := reached_dueCoalescing.mp hr
    rcases hno with hno | hno | hno | hno | hno
    · rw [hno] at ho; cases ho
    · rw [hno] at hc; cases hc
    · exact hu hno
    all_goals rw [hno] at hp; rcases hp with hp | hp | hp <;> cases hp

/-! ### Fetches -/

/-- A notice joins the posting queue where there is room, with the lost count (R140). -/
theorem postNotice_room {s : State} (h : s.notices < 16) (r : Cpl) :
    s.postNotice r = { s with posting := s.posting ++ [{ r with lost := BitVec.ofNat 8 s.lost }], lost := 0 } :=
  if_neg (Nat.not_le.mpr h)

/-- A notice is dropped and counted where there is none (R140). -/
theorem postNotice_full {s : State} (h : 16 ≤ s.notices) (r : Cpl) : s.postNotice r = { s with lost := min 255 (s.lost + 1) } :=
  if_pos h

/-- A ring written leaves the other. -/
theorem ring_setRing (s : State) (ring other : Ring) (r : RequestRing) :
    (s.setRing ring r).ring other = if other = ring then r else s.ring other := by
  cases ring <;> cases other <;> rfl

/-- Settles O55: each of the three commands writes its ring alone, and the fault hands over a notice. -/
theorem fetchesFillTheBuffer : Obligations.FetchesFillTheBuffer := by
  intro s ring h hs
  have hself (r : RequestRing) : (s.setRing ring r).ring ring = r := by rw [ring_setRing, if_pos rfl]
  have hother (r : RequestRing) : ∀ other, other ≠ ring → (s.setRing ring r).ring other = s.ring other :=
    fun other ho => by rw [ring_setRing, if_neg ho]
  have hset (r : RequestRing) : (s.setRing ring r).haltsSettled := by cases ring <;> exact hs
  have only {f : State → State} {r : RequestRing} (hf : f s = s.setRing ring r) (p : State → Prop)
      (hp : ∀ stall irq messages, p { s.setRing ring r with stall := stall, irq := irq, messages := messages }) :
      Answers (outcome s f) p := by
    refine answers_settled h f p ?_ ?_ <;> rw [hf]
    · exact hset r
    · exact hp
  refine ⟨fun place hp hb hsu hpl hpo => ?_, fun hno => ?_, fun address data hb => ⟨?_, ?_⟩, fun data => ?_, ?_⟩
  · have haddr : slotAddress (s.ring ring) = place.base + 64 * (s.ring ring).fetch := by simp [slotAddress, hpl]
    have hf : beginFetch ring s = s.setRing ring
        { s.ring ring with buffer := .fetching (place.base + 64 * (s.ring ring).fetch) } := by
      rw [← haddr]
      exact if_pos (canFetch_iff.mpr ⟨hp, hb, hsu, hpo⟩)
    refine only (f := beginFetch ring) hf _ fun stall irq messages => ?_
    cases ring <;> exact ⟨hself _, rfl, rfl, hother _, rfl⟩
  · refine answers_nothing (f := beginFetch ring) h hs (if_neg fun hc => ?_)
    obtain ⟨hp, hb, hsu, hpo⟩ := canFetch_iff.mp hc
    rcases hno with hno | hno | hno | hno
    · exact hno hp
    · exact hno hb
    · rw [hsu] at hno; cases hno
    · omega
  · have hf : endFetch ring .live data s = s.setRing ring { s.ring ring with buffer := .holding data } := by
      simp [endFetch, RequestRing.isFetching, hb]
    refine only (f := endFetch ring .live data) hf _ fun stall irq messages => ?_
    cases ring <;> exact ⟨hself _, rfl, rfl, hother _, rfl⟩
  · have hf : failFetch ring .live s
        = (s.setRing ring { s.ring ring with buffer := .empty, suspended := true }).postNotice (intakeFaultNotice s ring) := by
      simp [failFetch, RequestRing.isFetching, hb]
    have hn : (s.setRing ring { s.ring ring with buffer := .empty, suspended := true }).notices = s.notices := by
      cases ring <;> rfl
    have hl : (s.setRing ring { s.ring ring with buffer := .empty, suspended := true }).lost = s.lost := by cases ring <;> rfl
    have hpo : (s.setRing ring { s.ring ring with buffer := .empty, suspended := true }).posting = s.posting := by
      cases ring <;> rfl
    rcases Nat.lt_or_ge s.notices 16 with hlt | hge
    · rw [postNotice_room (by rw [hn]; exact hlt), hl, hpo] at hf
      refine answers_settled (f := failFetch ring .live) h _ ?_ fun stall irq messages => ?_ <;> rw [hf]
      · cases ring <;> exact hs
      · refine ⟨by cases ring <;> rfl, ⟨fun other ho => ?_, by cases ring <;> rfl⟩, fun _ => ⟨rfl, rfl⟩, fun hge => ?_⟩
        · rw [← hother { s.ring ring with buffer := .empty, suspended := true } other ho]
          cases other <;> rfl
        · omega
    · rw [postNotice_full (by rw [hn]; exact hge), hl] at hf
      refine answers_settled (f := failFetch ring .live) h _ ?_ fun stall irq messages => ?_ <;> rw [hf]
      · cases ring <;> exact hs
      · refine ⟨by cases ring <;> rfl, ⟨fun other ho => ?_, by cases ring <;> rfl⟩, fun hlt => ?_, fun _ => ⟨rfl, hpo⟩⟩
        · rw [← hother { s.ring ring with buffer := .empty, suspended := true } other ho]
          cases other <;> rfl
        · omega
  · exact answers_nothing (f := endFetch ring .dropped data) h hs rfl
  · exact answers_nothing (f := failFetch ring .dropped) h hs rfl

/-! ### The end of a drain -/

/-- Settles O59: the drain condition decides, and the writes not yet announced are announced. -/
theorem drainEndsInOff : Obligations.DrainEndsInOff := by
  intro s h hs
  refine ⟨fun hmet => ?_, fun hno => ?_⟩
  · have hd : drained s = true := drained_iff.mpr hmet
    have hf : completeDrain s = if s.unannounced = 0 then { s with part := .off } else announce { s with part := .off } :=
      if_pos hd
    by_cases hu : s.unannounced = 0
    · rw [if_pos hu] at hf
      refine answers_settled (f := completeDrain) h _ ?_ fun stall irq messages => ?_ <;> rw [hf]
      · exact hs
      · exact ⟨rfl, hu, (if_pos hu).symm, rfl⟩
    · rw [if_neg hu] at hf
      refine answers_settled (f := completeDrain) h _ ?_ fun stall irq messages => ?_ <;> rw [hf]
      · exact hs
      · exact ⟨rfl, rfl, (if_neg hu).symm, rfl⟩
  · exact answers_nothing (f := completeDrain) h hs (if_neg fun hd => hno (drained_iff.mp hd))

end Sys2Proof.Machine
end

section
/-! The arithmetic of the rate law, the completion writes, and the layouts of records and registers (O48, O56, O60). -/

namespace Sys2Proof.Machine

/-! ### The rate law (R30 to R37, R21 to R23) -/

/-- A pulse and its low time fit in the period of a step that the configuration allows (R32, R52). -/
theorem pulse_fits {cfg : ChanConfig} {rate : Nat} (h : cfg.valid = true) (h1 : 1 ≤ rate) (h2 : rate ≤ cfg.maxRate) :
    2 * (40 * cfg.pulseWidth) ≤ 40000000 / rate := by
  simp only [ChanConfig.valid, Bool.and_eq_true, decide_eq_true_eq] at h
  obtain ⟨⟨⟨⟨⟨⟨⟨⟨⟨⟨hpulse, _⟩, _⟩, _⟩, _⟩, _⟩, hmax⟩, _⟩, _⟩, _⟩, _⟩ := h
  have hle : rate * cfg.pulseWidth ≤ 500000 :=
    (Nat.mul_le_mul_right _ (h2.trans hmax)).trans (Nat.div_mul_le_self _ _)
  rw [Nat.le_div_iff_mul_le h1]
  calc 2 * (40 * cfg.pulseWidth) * rate = 80 * (rate * cfg.pulseWidth) := by ring
    _ ≤ 80 * 500000 := Nat.mul_le_mul_left _ hle

/-- N(w) is the least count of steps whose falls of 2B each cover the distance (R37). -/
theorem stepsDown_le_iff {w vt b n : Nat} (hb : 1 ≤ b) : stepsDown w vt b ≤ n ↔ w ≤ vt + 2 * b * n := by
  unfold stepsDown
  split
  · rename_i hlt
    have hexpand : (n + 1) * (2 * b) = 2 * b * n + 2 * b := by ring
    rw [← Nat.lt_succ_iff, Nat.div_lt_iff_lt_mul (by omega), hexpand]
    omega
  · rename_i hge
    have : w ≤ vt := Nat.le_of_not_lt hge
    exact iff_of_true (Nat.zero_le _) (this.trans (Nat.le_add_right _ _))

/-- Settles O48: the integer root, the period, the candidate, the steps down and the binding decision, each by its definition. -/
theorem rateLawArithmetic : Obligations.RateLawArithmetic := by
  have period (rate : Nat) : stepPeriod (rate ^ 2) = 40000000 / rate := by rw [stepPeriod, isqrt_sq]; rfl
  refine ⟨isqrt_spec, period, fun cfg rate h h1 h2 => ?_, fun v vc a b => ⟨fun h => ?_, fun h => ?_, fun h => ?_⟩,
    fun w vt b n hb => stepsDown_le_iff hb, fun ch m r ve hve => ⟨fun n place hc => ⟨fun hj => ?_, fun hj => ?_⟩, fun hno => ?_⟩⟩
  · rw [period]
    exact pulse_fits h h1 h2
  · rw [candidateSq, if_pos h]
  · rw [candidateSq, if_neg (by omega), if_pos h]
  · rw [candidateSq, if_neg (by omega), if_neg (by omega)]
  · obtain ⟨h1, h2, h3, h4, h5⟩ := hj
    simp only [decideBinding, hc, hve]
    exact if_pos ⟨h1, h2, h3, by simp [h4], h5⟩
  · simp only [decideBinding, hc, hve]
    refine if_neg fun hn => hj ?_
    obtain ⟨h1, h2, h3, h4, h5⟩ := hn
    exact ⟨h1, h2, h3, by simpa using h4, h5⟩
  · unfold decideBinding
    split
    · rename_i n place _ hc _
      exact absurd hc (hno n place)
    · rfl

/-! ### Completion writes -/

/-- The count of a write sets CPL (R145): the coalescing count is reached, or the delay is 0. -/
def countsFull (coalescing : Option (Nat × Nat)) (unannounced : Nat) : Bool :=
  match coalescing with
  | some (count, delay) => decide (delay = 0 ∨ max count 1 ≤ unannounced + 1)
  | none => true

/-- What counting a completed write does to the coalescing state and the causes (R145). -/
theorem countWrite_spec (s : State) :
    let full := countsFull s.coalescing s.unannounced
    countWrite s = { s with
      unannounced := if full then 0 else s.unannounced + 1
      oldest := if full then none else if s.unannounced = 0 then some s.now else s.oldest
      intCause := s.intCause ||| if full then causeCpl else 0 } := by
  intro full
  have hfull : (announceAt s.coalescing ≤ s.unannounced + 1) ↔ full = true := by
    simp only [full, announceAt, countsFull]
    cases s.coalescing with
    | none => simp
    | some x =>
      obtain ⟨count, delay⟩ := x
      simp only [decide_eq_true_eq]
      split
      · rename_i hd; simp [hd]
      · rename_i hd; simp [hd]
  unfold countWrite
  simp only
  split
  · rename_i hle
    rw [hfull.mp hle]
    rfl
  · rename_i hle
    have hf : full = false := Bool.eq_false_iff.mpr fun h => hle (hfull.mpr h)
    simp [hf]

/-- A returned credit leaves every ring but the one it was charged to (R126). -/
theorem ring_returnCredit (charged : Option Ring) (s : State) (ring : Ring) : (returnCredit charged s).ring ring
    = if charged = some ring then { s.ring ring with credits := (s.ring ring).credits - 1 } else s.ring ring := by
  unfold returnCredit
  cases charged with
  | none => simp
  | some x =>
    simp only [ring_setRing, Option.some.injEq]
    by_cases h : x = ring
    · subst h; simp
    · rw [if_neg h, if_neg (Ne.symm h)]

/-- What a completed write does to each field (R126, R137, R145, R146). -/
theorem recordWritten_spec {s : State} {r : Cpl} {rest : List Cpl} :
    let full := countsFull s.coalescing s.unannounced
    let t := recordWritten r rest s
    t.cplWrite = (if s.cplWrite + 1 < placeSize s.cplPlace then s.cplWrite + 1 else 0)
      ∧ t.pass = (if s.cplWrite + 1 < placeSize s.cplPlace then s.pass else !s.pass)
      ∧ (∀ ring, t.ring ring
        = if r.charged = some ring then { s.ring ring with credits := (s.ring ring).credits - 1 } else s.ring ring)
      ∧ t.unannounced = (if full then 0 else s.unannounced + 1)
      ∧ t.oldest = (if full then none else if s.unannounced = 0 then some s.now else s.oldest)
      ∧ t.intCause = s.intCause ||| (if full then causeCpl else 0) ||| (if urgentKind r then causeUrgent else 0) := by
  intro full t
  have hadv : advanceWrite { s with posting := rest, writing := none } = { s with
      posting := rest, writing := none
      cplWrite := if s.cplWrite + 1 < placeSize s.cplPlace then s.cplWrite + 1 else 0
      pass := if s.cplWrite + 1 < placeSize s.cplPlace then s.pass else !s.pass } := by
    unfold advanceWrite
    simp only
    split <;> rfl
  have hcredit (u : State) : returnCredit r.charged u = { u with
      mainRing := (returnCredit r.charged u).ring .main, ctrlRing := (returnCredit r.charged u).ring .ctrl } := by
    unfold returnCredit
    split
    · rename_i ring _
      cases ring <;> rfl
    · rfl
  have ht : t = { countWrite (returnCredit r.charged (advanceWrite { s with posting := rest, writing := none })) with
      intCause := (countWrite (returnCredit r.charged (advanceWrite { s with posting := rest, writing := none }))).intCause
        ||| if urgentKind r then causeUrgent else 0 } := by
    simp only [t, recordWritten]
    split
    · rfl
    · simp
  rw [hadv, hcredit, countWrite_spec] at ht
  rw [ht]
  refine ⟨rfl, rfl, fun ring => ?_, rfl, rfl, rfl⟩
  rw [← ring_returnCredit]
  cases ring
  · show State.ring (returnCredit r.charged _) .main = _
    rw [ring_returnCredit, ring_returnCredit]
    rfl
  · show State.ring (returnCredit r.charged _) .ctrl = _
    rw [ring_returnCredit, ring_returnCredit]
    rfl

/-- Settles O56: a write begins by its conditions, carries the head record, and its end does the steps of R137. -/
theorem completionWritesEmptyTheQueue : Obligations.CompletionWritesEmptyTheQueue := by
  intro s h hs
  refine ⟨fun hno => ?_, fun hno => ?_, answers_nothing (f := endWrite .dropped) h hs (by simp [endWrite]),
    fun r rest place hq hp hw => ⟨fun hn hspace => ?_, fun hn => ?_, fun hn => ?_⟩⟩
  · refine answers_nothing (f := beginWrite) h hs (if_neg fun hc => ?_)
    obtain ⟨hw, hn, hq, place, hp, hspace⟩ := canWrite_iff.mp hc
    rcases hno with hno | hno | hno | hno
    · exact hno hw
    · exact hno hn
    · exact hq hno
    · exact hno place hp hspace
  · refine answers_nothing (f := endWrite .live) h hs ?_
    unfold endWrite
    split
    · rename_i hw hq
      rcases hno with hno | hno
      · rw [hno] at hw; cases hw
      · rw [hno] at hq; cases hq
    · rfl
  · have hcan : canWrite s = true := canWrite_iff.mpr ⟨hw, hn, by simp [hq], place, hp, hspace⟩
    have hf : beginWrite s = { s with writing := some (place.base + 32 * s.cplWrite) } := by
      have haddr : cplAddress s = place.base + 32 * s.cplWrite := by simp [cplAddress, hp]
      rw [beginWrite, if_pos hcan, haddr]
    refine answers_settled (f := beginWrite) h _ ?_ fun stall irq messages => ?_ <;> rw [hf]
    · exact hs
    · refine ⟨rfl, ?_, rfl⟩
      simp [State.writeBytes, hq]
  · obtain ⟨address, ha⟩ := Option.ne_none_iff_exists'.mp hn
    simp [State.writeBytes, ha, hq]
  · obtain ⟨address, ha⟩ := Option.ne_none_iff_exists'.mp hn
    have hf : endWrite .live s = recordWritten r rest s := by simp [endWrite, ha, hq]
    have hframe := recordWritten_frame r rest s
    obtain ⟨hindex, hpass, hring, hcount, holdest, hcause⟩ := recordWritten_spec (s := s) (r := r) (rest := rest)
    have hsize : placeSize s.cplPlace = 2 ^ place.log2 := by rw [hp]; rfl
    rw [hsize] at hindex hpass
    refine answers_settled (f := endWrite .live) h _ ?_ fun stall irq messages => ?_ <;> rw [hf]
    · rw [hframe]; exact hs
    · refine ⟨by rw [hframe], by rw [hframe], fun hlt => ⟨hindex.trans (if_pos hlt), hpass.trans (if_pos hlt)⟩, fun hle => ?_,
        fun ring hr => ?_, fun ring hr => ?_, fun hfull => ?_, fun hfull => ?_, hcause, ?_⟩
      · exact ⟨hindex.trans (if_neg (Nat.not_lt.mpr hle)), hpass.trans (if_neg (Nat.not_lt.mpr hle))⟩
      · have := hring ring
        rw [if_pos hr] at this
        rw [← this]
        cases ring <;> rfl
      · have := hring ring
        rw [if_neg hr] at this
        rw [← this]
        cases ring <;> rfl
      · exact ⟨hcount.trans (if_pos hfull), holdest.trans (if_pos hfull)⟩
      · have hneg : ¬countsFull s.coalescing s.unannounced = true := fun hn => Bool.false_ne_true (hfull.symm.trans hn)
        exact ⟨hcount.trans (if_neg hneg), holdest.trans (if_neg hneg)⟩
      · generalize recordWritten r rest s = t at hframe ⊢
        rw [hframe]

end Sys2Proof.Machine
end

section
/-! The layouts of completion records and registers, and the accesses of the window (O60). -/

namespace Sys2Proof.Machine

/-! ### Words that pack several items -/

/-- One bit of a word that spells a number. -/
theorem getLsbD_auxNat {n i : Nat} (hi : i < 32) : (BitVec.ofNat 32 n).getLsbD i = decide (n / 2 ^ i % 2 = 1) := by
  rw [BitVec.getLsbD_ofNat, Nat.testBit_eq_decide_div_mod_eq]
  simp [hi]

/-- A field of a word that spells a number. -/
theorem extract_auxNat (n start len : Nat) :
    ((BitVec.ofNat 32 n).extractLsb' start len).toNat = n % 2 ^ 32 / 2 ^ start % 2 ^ len := by
  rw [BitVec.extractLsb'_toNat, BitVec.toNat_ofNat, Nat.shiftRight_eq_div_pow]

theorem bitNat_le (b : Bool) : bitNat b ≤ 1 := by cases b <;> decide
theorem partCode_le (x : PartState) : x.code ≤ 4 := by cases x <;> decide
theorem stallCode_le (x : StallCause) : x.code ≤ 5 := by cases x <;> decide
theorem faultCode_le (x : FaultCode) : x.code ≤ 7 := by cases x <;> decide

/-- A flag read back from the number that holds it. -/
theorem decide_bitNat {b : Bool} {n : Nat} (h : n = bitNat b) : decide (n = 1) = b := by
  subst h
  cases b <;> rfl

/-- Bits of STAT and CTRL as they read (R182). -/
theorem statWord_fields (s : State) :
    (s.statWord.extractLsb' 0 3).toNat = s.part.code ∧ s.statWord.getLsbD 3 = s.estopLatch
      ∧ s.statWord.getLsbD 4 = s.estop.qualified ∧ (s.statWord.extractLsb' 8 3).toNat = s.stall.code
      ∧ s.statWord.getLsbD 11 = s.indexError ∧ (s.statWord.extractLsb' 16 4).toNat = s.faultCode.code := by
  have hpart := partCode_le s.part
  have hstall := stallCode_le s.stall
  have hfault := faultCode_le s.faultCode
  have hlatch := bitNat_le s.estopLatch
  have hestop := bitNat_le s.estop.qualified
  have hindex := bitNat_le s.indexError
  unfold State.statWord
  refine ⟨?_, ?_, ?_, ?_, ?_, ?_⟩
  · rw [extract_auxNat]; omega
  · rw [getLsbD_auxNat (by decide)]; exact decide_bitNat (by omega)
  · rw [getLsbD_auxNat (by decide)]; exact decide_bitNat (by omega)
  · rw [extract_auxNat]; omega
  · rw [getLsbD_auxNat (by decide)]; exact decide_bitNat (by omega)
  · rw [extract_auxNat]; omega

theorem ctrlWord_fields (s : State) :
    s.ctrlWord.getLsbD 0 = (s.part == .starting || s.part == .running) ∧ s.ctrlWord.getLsbD 1 = false
      ∧ s.ctrlWord.getLsbD 2 = s.intEnable := by
  have hon := bitNat_le (s.part == .starting || s.part == .running)
  have hint := bitNat_le s.intEnable
  unfold State.ctrlWord
  refine ⟨?_, ?_, ?_⟩
  · rw [getLsbD_auxNat (by decide)]; exact decide_bitNat (by omega)
  · rw [getLsbD_auxNat (by decide)]; exact decide_eq_false (by omega)
  · rw [getLsbD_auxNat (by decide)]; exact decide_bitNat (by omega)

/-! ### The completion record (R180) -/

/-- The bytes of a word spell it. -/
theorem littleEndian_wordBytes (w : Word) : littleEndian (wordBytes w) = w.toNat := by
  have hw := w.isLt
  simp only [wordBytes, littleEndian, BitVec.extractLsb'_toNat, Nat.shiftRight_eq_div_pow]
  omega

/-- The fields of a completion record in their bytes. -/
theorem bytes_fields (r : Cpl) (pass : Bool) :
    let byte (i : Nat) : Byte := (r.bytes pass).getD i 0
    let word (i : Nat) : Nat := littleEndian (((r.bytes pass).drop i).take 4)
    (r.bytes pass).length = 32
    ∧ (byte 0).toNat = (if pass then 1 else 0) + (if r.notice then 2 else 0) ∧ byte 1 = r.kind
    ∧ (byte 2).toNat = r.status.code
    ∧ (byte 3).toNat = (if r.flags.unbound then 1 else 0) + (if r.flags.short then 2 else 0)
        + (if r.flags.overridden then 4 else 0) + (if r.flags.watchHalt then 8 else 0)
    ∧ byte 4 = r.channel ∧ byte 5 = r.lost ∧ byte 6 = 0 ∧ byte 7 = 0 ∧ word 8 = r.tag.toNat
    ∧ word 12 = r.position.toNat ∧ word 16 = r.timestamp.toNat ∧ word 20 = r.auxA.toNat ∧ word 24 = r.auxB.toNat
    ∧ word 28 = 0 := by
  refine ⟨rfl, ?_, rfl, ?_, ?_, rfl, rfl, rfl, rfl, littleEndian_wordBytes _, littleEndian_wordBytes _,
    littleEndian_wordBytes _, littleEndian_wordBytes _, littleEndian_wordBytes _, rfl⟩
  · show (BitVec.ofNat 8 (bitNat pass + 2 * bitNat r.notice)).toNat = _
    cases pass <;> cases r.notice <;> rfl
  · show (BitVec.ofNat 8 r.status.code).toNat = _
    cases r.status <;> rfl
  · show r.flags.byte.toNat = _
    unfold Flags.byte
    cases r.flags.unbound <;> cases r.flags.short <;> cases r.flags.overridden <;> cases r.flags.watchHalt <;> rfl

/-! ### The register window (R182) -/

/-- A write of one word is the command of its offset, and does what the window does with the write. -/
theorem windowCommand_spec (offset : BitVec 6) (enables : BitVec 4) (v : Word) (s : State) :
    (windowCommand offset enables v).windowWrite = some (offset, enables, v)
      ∧ exec (windowCommand offset enables v) s = outcome s (writeWindow offset enables v) := by
  unfold windowCommand
  split
  · exact ⟨rfl, rfl⟩
  rename_i he
  have he : enables = 15 := by simpa using he
  subst he
  split
  · rename_i ho
    subst ho
    split <;> [skip; split] <;> exact ⟨rfl, rfl⟩
  all_goals
    repeat'
      split
      · rename_i ho
        subst ho
        exact ⟨rfl, rfl⟩
  exact ⟨rfl, rfl⟩

/-- A read returns the enabled bytes of the word, and 0 in the others. -/
theorem readWindow_byte (s : State) (offset : BitVec 6) (enables : BitVec 4) {i : Nat} (hi : i < 4) :
    (s.readWindow offset enables).extractLsb' (8 * i) 8
      = if enables.getLsbD i then (s.readRegister offset).extractLsb' (8 * i) 8 else 0 := by
  have hbyte (j : Nat) : ∃ b : Nat, b < 256 ∧ (if enables.getLsbD j then ((s.readRegister offset).extractLsb' (8 * j) 8).toNat
      else 0) = b := by
    refine ⟨_, ?_, rfl⟩
    split
    · exact BitVec.isLt _
    · decide
  have hprod (j : Nat) : (if enables.getLsbD j then ((s.readRegister offset).extractLsb' (8 * j) 8).toNat * 256 ^ j else 0)
      = (if enables.getLsbD j then ((s.readRegister offset).extractLsb' (8 * j) 8).toNat else 0) * 256 ^ j := by
    split <;> simp
  obtain ⟨b0, h0, e0⟩ := hbyte 0
  obtain ⟨b1, h1, e1⟩ := hbyte 1
  obtain ⟨b2, h2, e2⟩ := hbyte 2
  obtain ⟨b3, h3, e3⟩ := hbyte 3
  have hwindow : s.readWindow offset enables = BitVec.ofNat 32 (b0 + b1 * 256 + b2 * 65536 + b3 * 16777216) := by
    simp only [State.readWindow, hprod, e0, e1, e2, e3]
    norm_num
  have hright : (if enables.getLsbD i then (s.readRegister offset).extractLsb' (8 * i) 8 else 0).toNat
      = if enables.getLsbD i then ((s.readRegister offset).extractLsb' (8 * i) 8).toNat else 0 := by
    split <;> rfl
  refine BitVec.eq_of_toNat_eq ?_
  rw [hwindow, extract_auxNat, hright]
  interval_cases i
  · rw [e0]; omega
  · rw [e1]; omega
  · rw [e2]; omega
  · rw [e3]; omega

theorem extract_low (a b : BitVec 32) : (a ++ b).extractLsb' 0 32 = b := by
  refine BitVec.eq_of_getLsbD_eq fun i hi => ?_
  simp only [BitVec.getLsbD_extractLsb', Nat.zero_add, BitVec.getLsbD_append, hi, decide_true, if_true, Bool.true_and]

theorem extract_high (a b : BitVec 32) : (a ++ b).extractLsb' 32 32 = a := by
  refine BitVec.eq_of_getLsbD_eq fun i hi => ?_
  simp only [BitVec.getLsbD_extractLsb', BitVec.getLsbD_append, hi, decide_true, Bool.true_and, Nat.not_lt.mpr
    (Nat.le_add_right 32 i), if_false, Nat.add_sub_cancel_left]

/-- Settles O60: the bytes of a record, the registers by offset, and the two words of an access of 64 bits. -/
theorem recordsAndRegistersAreLaidOut : Obligations.RecordsAndRegistersAreLaidOut := by
  refine ⟨bytes_fields, fun s h => ?_, fun s offset enables v => ?_, fun first second offset enables v => ?_⟩
  · have hread (o : BitVec 6) : s.readRegister o = _ := if_neg (by simp [h])
    obtain ⟨hon, hsoft, hint⟩ := ctrlWord_fields s
    obtain ⟨hpart, hlatch, hestop, hstall, hindex, hfault⟩ := statWord_fields s
    refine ⟨by rw [hread]; exact hon, by rw [hread]; exact hsoft, by rw [hread]; exact hint, by rw [hread]; exact hpart,
      by rw [hread]; exact hlatch, by rw [hread]; exact hestop, by rw [hread]; exact hstall, by rw [hread]; exact hindex,
      by rw [hread]; exact hfault, by rw [hread]; rfl, by rw [hread]; rfl, by rw [hread]; rfl, by rw [hread]; rfl,
      by rw [hread]; rfl, by rw [hread]; rfl, by rw [hread]; rfl, by rw [hread]; rfl, by rw [hread]; rfl, fun offset ho => ?_⟩
    have key : ∀ taken : BitVec 6, taken.toNat < 44 → offset ≠ taken := by
      rintro _ hlt rfl
      omega
    rw [hread, if_neg (key 0 (by decide)), if_neg (key 4 (by decide)), if_neg (key 8 (by decide)), if_neg (key 12 (by decide)),
      if_neg (key 16 (by decide)), if_neg (key 20 (by decide)), if_neg (key 24 (by decide)), if_neg (key 28 (by decide)),
      if_neg (key 32 (by decide)), if_neg (key 36 (by decide)), if_neg (key 40 (by decide))]
  · obtain ⟨hwrite, hexec⟩ := windowCommand_spec offset enables v s
    exact ⟨hwrite, hexec, fun i hi => readWindow_byte s offset enables hi⟩
  · refine ⟨extract_low _ _, fun ho => ⟨?_, ?_⟩, fun ho => ⟨?_, ?_⟩⟩
    · have hu : upperInWindow offset = true := decide_eq_true (by omega)
      simp [windowCommands64, hu]
    · have hu : upperInWindow offset = true := decide_eq_true (by omega)
      refine (extract_high _ _).trans ?_
      rw [hu]
      rfl
    · have hu : upperInWindow offset = false := decide_eq_false (by omega)
      simp [windowCommands64, hu]
    · have hu : upperInWindow offset = false := decide_eq_false (by omega)
      refine (extract_high _ _).trans ?_
      rw [hu]
      rfl

end Sys2Proof.Machine
end

section
/-! The arbiter, the checks of the queued kinds, and the main-ring takes that only complete (O15, O16, O18, O19, O20, O26). -/

namespace Sys2Proof.Machine

/-! ### The arbiter (R123, R127, R132) -/

theorem creditFor_main_iff {s : State} :
    creditFor s .main = true ↔ s.mainRing.credits + s.ctrlRing.credits < 64 ∧ s.mainRing.credits < 56 := by
  show (decide (s.mainRing.credits + s.ctrlRing.credits < 64) && decide (s.mainRing.credits < 56)) = true ↔ _
  rw [Bool.and_eq_true, decide_eq_true_iff, decide_eq_true_iff]

theorem creditFor_ctrl_iff {s : State} : creditFor s .ctrl = true ↔ s.mainRing.credits + s.ctrlRing.credits < 64 :=
  decide_eq_true_iff

theorem heldRecord_eq_some {s : State} {ring : Ring} {r : Block} (h : (s.ring ring).buffer = .holding r) :
    heldRecord s ring = some r := by
  rw [heldRecord, h]

theorem heldRecord_eq_none {s : State} {ring : Ring} (h : ∀ r, (s.ring ring).buffer ≠ .holding r) :
    heldRecord s ring = none := by
  unfold heldRecord
  split
  · exact absurd (by assumption) (h _)
  · rfl
  · rfl

/-- Outside RUNNING nothing is taken (R132). -/
theorem takeable_of_not_running {s : State} (h : s.part ≠ .running) (ring : Ring) : takeable s ring = none := by
  cases ring <;> simp [takeable, ctrlTakeable, h]

/-- The main record is taken when no control record is and its judgment finds no stall cause (R123). -/
theorem takeable_main {s : State} {r : Block} (hp : s.part = .running) (hc : ctrlTakeable s = none)
    (hb : s.mainRing.buffer = .holding r) : takeable s .main = if (mainStall s r).isNone then some r else none := by
  unfold takeable
  simp only [hp, hc, Option.isNone_none, and_self, if_true]
  rw [heldRecord_eq_some (ring := .main) hb]

section Judgment
variable {s : State} {r : Block} {k : ReqKind}

theorem mainStall_noCredit (h : creditFor s .main = false) : mainStall s r = some .credits := by simp [mainStall, h]

theorem mainStall_refused (h : creditFor s .main = true) (hi : intakeRefusal .main r ≠ none) : mainStall s r = none := by
  simp [mainStall, h, Option.isSome_iff_ne_none.mpr hi]

theorem mainStall_declined (h : creditFor s .main = true) (hi : intakeRefusal .main r = none) (hk : recReq? r = some k)
    (ho : ownerRefusal k s r ≠ none) : mainStall s r = none := by
  simp [mainStall, h, hi, hk, Option.isSome_iff_ne_none.mpr ho]

/-- A record that passes every check waits for what is missing alone (R127). -/
theorem mainStall_passed (h : creditFor s .main = true) (hi : intakeRefusal .main r = none) (hk : recReq? r = some k)
    (ho : ownerRefusal k s r = none) : mainStall s r = resourceStall k s r := by
  simp [mainStall, h, hi, hk, ho]

end Judgment

theorem queueFull_iff {s : State} {c : Chan} : queueFull s c = true ↔ 8 ≤ (s.chan c).queue.length :=
  decide_eq_true_iff

/-- A kind that puts one entry into one queue waits for room there (R127). -/
theorem resourceStall_queued {k : ReqKind} (hk : k ∈ [ReqKind.move, .dwell, .setPosition, .mark]) (s : State) (r : Block) :
    resourceStall k s r = if queueFull s (recChan r) then some .queue else none := by
  simp only [List.mem_cons, List.not_mem_nil, or_false] at hk
  rcases hk with rfl | rfl | rfl | rfl <;> rfl

theorem freeSlot?_isNone {s : State} : (freeSlot? s).isNone = true ↔ ∀ i : SlotIx, (s.slots[i]).isSome = true := by
  simp [freeSlot?, mem_allSlots, Option.isSome_iff_ne_none]

theorem any_queueFull {s : State} {m : Mask} :
    (chansOf m).any (queueFull s) = true ↔ ∃ c, hasChan m c = true ∧ 8 ≤ (s.chan c).queue.length := by
  simp [List.any_eq_true, queueFull_iff]

/-- What a RENDEZVOUS waits for, in the order of its judgment (R127). -/
theorem resourceStall_rendezvous (s : State) (r : Block) :
    ((∃ c, hasChan (recMask r 8) c = true ∧ 8 ≤ (s.chan c).queue.length) → resourceStall .rendezvous s r = some .queue)
      ∧ ((∀ c, hasChan (recMask r 8) c = true → (s.chan c).queue.length < 8) →
        ((∀ i : SlotIx, (s.slots[i]).isSome = true) → resourceStall .rendezvous s r = some .slot)
        ∧ ((∃ i : SlotIx, s.slots[i] = none) → resourceStall .rendezvous s r
            = if blockByte r 9 = 1 ∧ externalOpen s = true then some .external else none)) := by
  refine ⟨fun hfull => if_pos (any_queueFull.mpr hfull), fun hroom => ?_⟩
  have hno : ¬(chansOf (recMask r 8)).any (queueFull s) = true := fun h => by
    obtain ⟨c, hc, hl⟩ := any_queueFull.mp h
    exact absurd (hroom c hc) (Nat.not_lt.mpr hl)
  refine ⟨fun hslots => (if_neg hno).trans (if_pos (freeSlot?_isNone.mpr hslots)), fun ⟨i, hi⟩ => ?_⟩
  refine (if_neg hno).trans (if_neg fun h => ?_)
  have := freeSlot?_isNone.mp h i
  rw [hi] at this
  cases this

/-- Settles O15: what the arbiter takes, and the judgment of the main record condition by condition. -/
theorem arbiterJudgesInOrder : Obligations.ArbiterJudgesInOrder := by
  refine ⟨fun s => ⟨fun ring hp => takeable_of_not_running hp ring, fun hp r hb hcr => ?_, fun hcr => ?_, fun hp hb r hr => ?_⟩,
    fun s r => ⟨fun hcr => mainStall_noCredit ?_, fun htotal hmain => ⟨?_, fun k hk hi => ⟨?_, fun ho => ?_⟩⟩⟩⟩
  · have hc : ctrlTakeable s = some r := by
      simp [ctrlTakeable, hp, creditFor_ctrl_iff.mpr hcr, heldRecord_eq_some (ring := .ctrl) hb]
    exact ⟨hc, by simp [takeable, hc]⟩
  · have hc : creditFor s .ctrl = false := Bool.eq_false_iff.mpr fun h => by have := creditFor_ctrl_iff.mp h; omega
    have hm : creditFor s .main = false := Bool.eq_false_iff.mpr fun h => by have := creditFor_main_iff.mp h; omega
    exact ⟨takeable_of_noCredit hc, takeable_of_noCredit hm⟩
  · have hc : ctrlTakeable s = none := by simp [ctrlTakeable, heldRecord_eq_none (ring := .ctrl) hb]
    rw [takeable_main hp hc hr]
    exact ⟨fun h => by simp [h], fun h => by simp [h]⟩
  · exact Bool.eq_false_iff.mpr fun h => by have := creditFor_main_iff.mp h; omega
  · exact mainStall_refused (creditFor_main_iff.mpr ⟨htotal, hmain⟩)
  · exact mainStall_declined (creditFor_main_iff.mpr ⟨htotal, hmain⟩) hi hk
  · rw [mainStall_passed (creditFor_main_iff.mpr ⟨htotal, hmain⟩) hi hk ho]
    refine ⟨?_, fun hq hl => ?_, ?_, ?_, ?_, ?_, fun hq hl => ?_, ?_, fun hk' => ?_⟩
    · rintro rfl hpos
      exact if_pos hpos.ne'
    · rw [resourceStall_queued hq, if_pos (queueFull_iff.mpr hl.ge)]
    · rintro rfl c hc hl
      exact (resourceStall_rendezvous s r).1 ⟨c, hc, hl.ge⟩
    · rintro rfl hroom hslots
      exact ((resourceStall_rendezvous s r).2 hroom).1 hslots
    · rintro rfl hroom hfree hx ho
      rw [((resourceStall_rendezvous s r).2 hroom).2 hfree, if_pos ⟨hx, ho⟩]
    · rintro rfl hroom hfree hx
      rw [((resourceStall_rendezvous s r).2 hroom).2 hfree, if_neg hx]
    · rw [resourceStall_queued hq, if_neg fun h => by have := queueFull_iff.mp h; omega]
    · rintro rfl hzero
      exact if_neg (not_not.mpr hzero)
    · simp only [List.mem_cons, List.not_mem_nil, or_false] at hk'
      rcases hk' with rfl | rfl <;> rfl

/-- A held main record that lacks something shows its cause (R128). -/
theorem stall_rejudge {s : State} {r : Block} {cause : StallCause} (hp : s.part = .running) (hc : ctrlTakeable s = none)
    (hb : s.mainRing.buffer = .holding r) (hm : mainStall s r = some cause) : (rejudge s).stall = cause := by
  unfold rejudge
  rw [heldRecord_eq_some (ring := .main) hb]
  simp [hp, hc, hm]

/-- Settles O16: the take is not made, and the end of the command shows the judgment's cause. -/
theorem stalledRecordStays : Obligations.StalledRecordStays := by
  intro s r cause hawake hp hc hb hm hs
  have hnone : takeable s .main = none := by rw [takeable_main hp hc hb, hm]; rfl
  obtain ⟨accept, hexec⟩ := exec_takeCommand .main (recReq? r)
  have hstays := takeKind_none hnone (recReq? r) accept
  refine ⟨finish s, by rw [hexec, outcome_awake hawake, hstays], ?_⟩
  have hframe := finish_settled s hs
  rw [stall_rejudge hp hc hb hm] at hframe
  have hstall : (finish s).stall = cause := congrArg State.stall hframe
  refine ⟨hstall, ?_, hframe⟩
  · refine BitVec.eq_of_toNat_eq ?_
    rw [(statWord_fields (finish s)).2.2.2.1, hstall]
    cases cause <;> rfl

end Sys2Proof.Machine
end

section
/-! The main-ring takes that only complete, or only join a queue (O18, O19, O20, O21, O26). -/

namespace Sys2Proof.Machine

/-! ### The record of a request completed at its take (R121, R122, R142) -/

section Completed
variable {s : State} {ring : Ring} {k : ReqKind} {r : Block}

@[simp] theorem position_consume (s : State) (ring : Ring) (c : Chan) : (consume ring s).position c = s.position c := by
  rw [State.position, chan_consume, State.position]

@[simp] theorem now_consume (s : State) (ring : Ring) : (consume ring s).now = s.now := by cases ring <;> rfl

/-- The completion of a taken request that shows a channel. -/
theorem channelDone_taken (h : Taken s ring k r) (status : Status) (c : Chan) (auxA auxB : Word) :
    channelDone (consume ring s) ring r status c auxA auxB
      = (s.done ring k.code (recTag r) status .clear (chanByte c) (s.position c) auxA auxB).showing s c := by
  rw [channelDone, done_consume, recKind_of_recReq h.kind, position_consume, Cpl.showing, now_consume, Cpl.showing]

/-- A refusal that shows no channel. -/
theorem refuse_plain (h : Taken s ring k r) (status : Status) :
    refuse ring r (plainRefusal status) (consume ring s)
      = (consume ring s).post (s.done ring k.code (recTag r) status .clear 0 0 0 0) := by
  rw [← done_consume s ring, ← recKind_of_recReq h.kind]
  rfl

/-- A refusal that shows a channel. -/
theorem refuse_shown (h : Taken s ring k r) (status : Status) (c : Chan) (auxA : Word) :
    refuse ring r { status := status, channel := some c, auxA := auxA } (consume ring s)
      = (consume ring s).post
          ((s.done ring k.code (recTag r) status .clear (chanByte c) (s.position c) auxA 0).showing s c) := by
  rw [← channelDone_taken h]
  rfl

/-- A taken request whose owner only hands over one record. -/
theorem answers_record (h : Taken s ring k r) (hs : s.haltsSettled) {accept : Block → Nat → State → State} {x : Cpl}
    (ha : accept r (s.ring ring).fetch (consume ring s) = (consume ring s).post x) :
    Answers (outcome s (takeKind (some k) ring accept)) (CompletesAtTake s ring x) :=
  answers_completesAtTake h.awake hs (by rw [takeKind_taken h, ha])

end Completed

/-! ### SET_PROFILE (R28) -/

theorem index16?_eq {b : Byte} {i : Fin 16} (h : i.val = b.toNat) : index16? b = some i := by
  have hlt : b.toNat < 16 := h ▸ i.isLt
  rw [index16?, dif_pos hlt]
  exact congrArg some (Fin.ext h.symm)

theorem index16?_eq_none {b : Byte} (h : 15 < b.toNat) : index16? b = none := dif_neg (Nat.not_lt.mpr h)

/-- The values of a profile in range (R28). -/
theorem profile_valid_iff {p : Profile} :
    p.valid = true ↔ 1 ≤ p.vs ∧ p.vs ≤ p.vc ∧ p.vc ≤ 400000 ∧ 1 ≤ p.a ∧ p.a ≤ 16777215 ∧ 1 ≤ p.b ∧ p.b ≤ 16777215 := by
  simp only [Profile.valid, Bool.and_eq_true, decide_eq_true_eq, and_assoc]
  rfl

/-- Settles O18: the index and the values decide, and an accepted record writes one profile. -/
theorem setProfileWritesOrRefuses : Obligations.SetProfileWritesOrRefuses := by
  intro s r ht hs vs vc a b inRange
  refine ⟨fun hin i hi => ?_, fun hout => ?_⟩
  · have hrec : recSetProfile? r = some (i, recProfile r) := by
      simp only [recSetProfile?, index16?_eq hi]
      exact if_pos (profile_valid_iff.mpr hin.2)
    have howner : admitSetProfile r (consume .main s) = ((consume .main s).setProfile i (some (recProfile r))).post
        (okDone (consume .main s) .main r (auxNat i.val) (auxNat (bitNat (s.profiles[i]).isSome))) := by
      simp only [admitSetProfile, hrec]
      rfl
    refine answers_take ht _ _ ?_ fun stall irq messages => ?_ <;> simp only [howner]
    · exact haltsSettled_of hs rfl fun _ h => h
    · refine ⟨?_, fun j hj => ?_, ?_, consume_tookFrom s .main, rfl⟩
      · exact (State.profiles_setProfile_get _ i i _).trans (if_pos rfl)
      · exact (State.profiles_setProfile_get _ i j _).trans (if_neg hj)
      · rw [okDone_taken ht, auxNat_bitNat]
        rfl
  · have hrec : recSetProfile? r = none := by
      rcases Nat.lt_or_ge 15 (blockByte r 8).toNat with hgt | hle
      · simp [recSetProfile?, index16?_eq_none hgt]
      · simp only [recSetProfile?, index16?_eq (i := ⟨(blockByte r 8).toNat, by omega⟩) rfl]
        exact if_neg fun hv => hout ⟨hle, profile_valid_iff.mp hv⟩
    exact answers_record ht hs (by simp only [admitSetProfile, hrec, refuse_plain ht])

/-! ### The field checks of the queued kinds (R3, R7, R8) -/

/-- The MOVE entry of a record whose mode and profile are good (R7). -/
theorem recMove?_eq {s : State} {r : Block} {mode : MoveMode} {i : ProfIx} {p : Profile}
    (hm : moveMode? (blockByte r 8) = some mode) (hi : i.val = (blockByte r 10).toNat) (hp : s.profiles[i] = some p) :
    recMove? s r =
      if flagField (blockByte r 9) = true ∧ (blockByte r 9 = 1 → 1 ≤ blockField r 16 4 ∧ blockField r 16 4 ≤ 400000)
          ∧ (blockByte r 9 = 0 → blockField r 16 4 = 0) ∧ p.vc ≤ (s.chan (recChan r)).cfg.maxRate then
        some {
          tag := recTag r, mode := mode, amount := blockWord r 12
          exitRate := if blockByte r 9 = 1 then some (blockField r 16 4) else none, profile := p, overridden := false }
      else none := by
  simp only [recMove?, hm, index16?_eq hi, hp]
  rfl

/-- A MOVE whose mode and profile are good fails by each field check that its other fields do not meet (R7). -/
theorem recMove?_none {s : State} {r : Block}
    (h : ¬(flagField (blockByte r 9) = true ∧ (blockByte r 9 = 1 → 1 ≤ blockField r 16 4 ∧ blockField r 16 4 ≤ 400000)
      ∧ (blockByte r 9 = 0 → blockField r 16 4 = 0))) : recMove? s r = none := by
  unfold recMove?
  simp only
  split
  · split
    · rfl
    · exact if_neg fun hc => h ⟨hc.1, hc.2.1, hc.2.2.1⟩
  · rfl

theorem flagField_iff {b : Byte} : flagField b = true ↔ b = 0 ∨ b = 1 := by simp [flagField]

/-- Settles O19: each check by its field, and the entry where all pass. -/
theorem queuedKindsFieldChecks : Obligations.QueuedKindsFieldChecks := by
  intro s r ve chain
  have hnone (h : recMove? s r = none) : recEntry? .move s r = none := by simp [recEntry?, h]
  refine ⟨fun i hi p hp mode hm hvc => ⟨fun hc h1 h2 => ?_, fun hc h0 => ?_⟩, fun hm => hnone ?_, fun hi => hnone ?_,
    fun i hi hp => hnone ?_, fun i hi p hp hvc => hnone ?_, fun h0 h1 => hnone (recMove?_none fun h => ?_),
    fun hc hve => hnone (recMove?_none fun h => hve (h.2.1 hc)), fun hc hve => hnone (recMove?_none fun h => hve (h.2.2 hc)),
    fun h => if_pos h, fun h => if_neg h, rfl, fun h => if_neg h, fun h => if_pos h⟩
  · have hne : ¬blockByte r 9 = 0 := fun h => absurd (h.symm.trans hc) (by decide)
    have hgood := recMove?_eq hm hi hp
    rw [if_pos ⟨flagField_iff.mpr (.inr hc), fun _ => ⟨h1, h2⟩, fun h => absurd h hne, hvc⟩, if_pos hc] at hgood
    simp only [recEntry?, hgood]
    rfl
  · have hne : ¬blockByte r 9 = 1 := fun h => absurd (h.symm.trans hc) (by decide)
    have hgood := recMove?_eq hm hi hp
    rw [if_pos ⟨flagField_iff.mpr (.inl hc), fun h => absurd h hne, fun _ => h0, hvc⟩, if_neg hne] at hgood
    simp only [recEntry?, hgood]
    rfl
  · simp [recMove?, hm]
  · unfold recMove?
    rw [index16?_eq_none hi]
    split
    · rename_i h; cases h
    · rfl
  · unfold recMove?
    rw [index16?_eq hi]
    split
    · rename_i h
      cases h
      rw [hp]
    · rfl
  · cases hm : moveMode? (blockByte r 8) with
    | none => simp [recMove?, hm]
    | some mode => rw [recMove?_eq hm hi hp, if_neg fun h => absurd h.2.2.2 (Nat.not_le.mpr hvc)]
  · rcases flagField_iff.mp h.1 with hb | hb
    · exact h0 hb
    · exact h1 hb

/-! ### The queued kinds refused, or joining the tail (R5) -/

/-- The command that takes a record of a queued kind. -/
theorem exec_takeQueued {k : ReqKind} (hk : k ∈ [ReqKind.move, .dwell, .setPosition, .mark]) (s : State) :
    exec (takeCommand .main (some k)) s = outcome s (takeKind (some k) .main fun r _ => admitEntry k r) := by
  simp only [List.mem_cons, List.not_mem_nil, or_false] at hk
  rcases hk with rfl | rfl | rfl | rfl <;> rfl

/-- The take of a record bears on none of its field checks. -/
theorem recEntry?_consume (k : ReqKind) (ring : Ring) (s : State) (r : Block) :
    recEntry? k (consume ring s) r = recEntry? k s r := by
  cases k <;> cases ring <;> rfl

/-- A closed queue refuses by its state (R5). -/
theorem closedRefusal_closed {s : State} {c : Chan} (h : (s.chan c).isOpen = false) :
    closedRefusal s c = some {
      status := if (s.chan c).state = .disabled then .channelOff else .channelHeld, channel := some c, auxA := 0 } := by
  simp [closedRefusal, h]

theorem closedRefusal_open {s : State} {c : Chan} (h : (s.chan c).isOpen = true) : closedRefusal s c = none := if_pos h

/-- The owner's part of a queued kind, by its field checks and the state of the queue (R5, R7, R8). -/
theorem admitEntry_badField {k : ReqKind} {s : State} {r : Block} (h : recEntry? k s r = none) :
    admitEntry k r s = refuse .main r (plainRefusal .badField) s := by simp [admitEntry, h]

theorem admitEntry_closed {k : ReqKind} {s : State} {r : Block} (h : recEntry? k s r ≠ none)
    (hc : (s.chan (recChan r)).isOpen = false) :
    admitEntry k r s = refuse .main r {
      status := if (s.chan (recChan r)).state = .disabled then .channelOff else .channelHeld
      channel := some (recChan r), auxA := 0 } s := by
  obtain ⟨e, he⟩ := Option.ne_none_iff_exists'.mp h
  simp [admitEntry, he, closedRefusal_closed hc]

theorem admitEntry_open {k : ReqKind} {s : State} {r : Block} {e : Entry} (h : recEntry? k s r = some e)
    (hc : (s.chan (recChan r)).isOpen = true) : admitEntry k r s = (appendEntry (recChan r) e s).settle := by
  simp [admitEntry, h, closedRefusal_open hc]

/-- Settles O20: the three refusals of a queued kind, in the order of its checks. -/
theorem queuedKindsRefused : Obligations.QueuedKindsRefused := by
  intro s k r hk ht hs
  have hclosed (hrec : recEntry? k s r ≠ none) (ho : (s.chan (recChan r)).isOpen = false) (status : Status)
      (hst : (if (s.chan (recChan r)).state = .disabled then Status.channelOff else .channelHeld) = status) :
      Answers (exec (takeCommand .main (some k)) s) (CompletesAtTake s .main
        ((s.done .main k.code (recTag r) status .clear (chanByte (recChan r)) (s.position (recChan r)) 0 0).showing s
          (recChan r))) := by
    rw [exec_takeQueued hk]
    refine answers_record ht hs ?_
    rw [admitEntry_closed (by rwa [recEntry?_consume]) (by rwa [chan_consume]), chan_consume, hst, refuse_shown ht]
  refine ⟨fun hrec => ?_, fun hrec hst => ?_, fun hrec hst => ?_⟩
  · rw [exec_takeQueued hk]
    refine answers_record ht hs ?_
    rw [admitEntry_badField (by rwa [recEntry?_consume]), refuse_plain ht]
  · exact hclosed hrec (by simp [Channel.isOpen, hst]) _ (if_pos hst)
  · refine hclosed hrec ?_ _ (if_neg ?_) <;> rcases hst with hst | hst <;> simp [Channel.isOpen, hst]

/-- An entry admitted to a channel that has work joins the tail, and sends nothing (R5). -/
theorem appendEntry_joins {s : State} {c : Chan} (h : (s.chan c).state ≠ .idle) (e : Entry) :
    appendEntry c e s = (s.setChan c { s.chan c with queue := (s.chan c).queue ++ [e] }, []) := if_neg h

/-- Settles O21: the queue is open, so the entry joins it. -/
theorem queuedKindsJoinTheTail : Obligations.QueuedKindsJoinTheTail := by
  intro s k r e hk ht hs hrec hst
  simp only [List.mem_cons, List.not_mem_nil, or_false] at hst
  have hopen : (s.chan (recChan r)).isOpen = true := by
    rcases hst with h | h | h <;> simp [Channel.isOpen, h]
  have hidle : (s.chan (recChan r)).state ≠ .idle := by rcases hst with h | h | h <;> simp [h]
  have howner : admitEntry k r (consume .main s) = (consume .main s).setChan (recChan r)
      { s.chan (recChan r) with queue := (s.chan (recChan r)).queue ++ [e] } := by
    rw [admitEntry_open (by rwa [recEntry?_consume]) (by rwa [chan_consume]), appendEntry_joins (by rwa [chan_consume]),
      chan_consume, settle_quiet]
  have hothers (d : Chan) (hd : d ≠ recChan r) := (State.chan_setChan_of_ne (consume .main s) hd
    { s.chan (recChan r) with queue := (s.chan (recChan r)).queue ++ [e] }).trans (chan_consume s .main d)
  rw [exec_takeQueued hk]
  refine answers_take ht _ _ ?_ fun stall irq messages => ?_ <;> simp only [howner]
  · refine haltsSettled_of_chan (c := recChan r) hs rfl hothers fun h => ?_
    rw [State.chan_setChan_self]
    exact h
  · exact ⟨State.chan_setChan_self _ _ _, hothers, consume_tookFrom s .main, rfl⟩

/-! ### RENDEZVOUS refused (R74, R75) -/

theorem rendezvousFieldsOk_iff {r : Block} : rendezvousFieldsOk r = true ↔
    recMask r 8 ≠ 0 ∧ (blockByte r 9 = 0 ∨ blockByte r 9 = 1) ∧ blockField r 12 4 ≤ 65535 := by
  simp [rendezvousFieldsOk, flagField_iff, and_assoc]

/-- The members of a RENDEZVOUS whose queues are closed (R75). -/
def closedMembers (s : State) (members : Mask) : Mask := maskOf fun c => hasChan members c && !(s.chan c).isOpen

theorem rendezvousClosed_eq {s : State} {members : Mask} (h : closedMembers s members ≠ 0) {status : Status}
    (hst : (if (chansOf (closedMembers s members)).any (fun c => (s.chan c).state == .disabled) then Status.channelOff
      else .channelHeld) = status) :
    rendezvousClosed s members = some {
      status := status, channel := some (lowestChan (closedMembers s members)), auxA := auxMask (closedMembers s members) } := by
  subst hst
  exact if_neg h

theorem any_disabled_closed {s : State} {members : Mask} :
    (chansOf (closedMembers s members)).any (fun c => (s.chan c).state == .disabled) = true
      ↔ ∃ c, hasChan members c = true ∧ (s.chan c).state = .disabled := by
  simp only [List.any_eq_true, mem_chansOf, closedMembers, hasChan_maskOf, Bool.and_eq_true, Bool.not_eq_true', beq_iff_eq]
  constructor
  · rintro ⟨c, ⟨hm, _⟩, hd⟩
    exact ⟨c, hm, hd⟩
  · rintro ⟨c, hm, hd⟩
    exact ⟨c, ⟨hm, by simp [Channel.isOpen, hd]⟩, hd⟩

theorem rendezvousClosed_consume (s : State) (ring : Ring) (m : Mask) :
    rendezvousClosed (consume ring s) m = rendezvousClosed s m := by
  cases ring <;> rfl

/-- A RENDEZVOUS that an owner's check refuses (R122). -/
theorem admitRendezvous_refused {s : State} {r : Block} {x : Declined} (h : ownerRefusal .rendezvous s r = some x) :
    admitRendezvous r s = refuse .main r x s := by simp [admitRendezvous, h]

/-- Settles O26: the fields first, then the closed members, by their states. -/
theorem rendezvousRefused : Obligations.RendezvousRefused := by
  intro s r ht hs members fieldsOk closed first
  have hclosed (hf : fieldsOk) (hne : closed ≠ 0) (status : Status)
      (hst : (if (chansOf closed).any (fun c => (s.chan c).state == .disabled) then Status.channelOff else .channelHeld)
        = status) :
      Answers (exec (.rendezvous .main) s) (CompletesAtTake s .main
        ((s.done .main ReqKind.rendezvous.code (recTag r) status .clear (chanByte first) (s.position first)
          (auxMask closed) 0).showing s first)) := by
    refine answers_record ht hs ?_
    have hrefused : ownerRefusal .rendezvous (consume .main s) r
        = some { status := status, channel := some first, auxA := auxMask closed } := by
      simp only [ownerRefusal, rendezvousFieldsOk_iff.mpr hf, Bool.not_true, Bool.false_eq_true, if_false]
      rw [rendezvousClosed_consume]
      exact rendezvousClosed_eq hne hst
    rw [admitRendezvous_refused hrefused, refuse_shown ht]
  refine ⟨fun hf => ?_, fun hf hne hd => ?_, fun hf hne hd => ?_⟩
  · refine answers_record ht hs ?_
    have hrefused : ownerRefusal .rendezvous (consume .main s) r = some (plainRefusal .badField) := by
      have : rendezvousFieldsOk r = false := Bool.eq_false_iff.mpr fun h => hf (rendezvousFieldsOk_iff.mp h)
      simp [ownerRefusal, this]
    rw [admitRendezvous_refused hrefused, refuse_plain ht]
  · exact hclosed hf hne _ (if_pos (any_disabled_closed.mpr hd))
  · refine hclosed hf hne _ (if_neg fun h => ?_)
    obtain ⟨c, hm, hst⟩ := any_disabled_closed.mp h
    exact hd c hm hst

end Sys2Proof.Machine
end

section
/-! The takes of RESUME, QUERY and OVERRIDE_RATE (O31, O32, O36). -/

namespace Sys2Proof.Machine

/-- What a take answers whose owner leaves a given state, with the pending HALTs settled. -/
theorem answers_owner {s u : State} {ring : Ring} {k : ReqKind} {r : Block} (h : Taken s ring k r)
    {accept : Block → Nat → State → State} (ha : accept r (s.ring ring).fetch (consume ring s) = u) (hu : u.haltsSettled)
    {p : State → Prop} (hp : ∀ stall irq messages, p { u with stall := stall, irq := irq, messages := messages }) :
    Answers (outcome s (takeKind (some k) ring accept)) p := by
  subst ha
  exact answers_take h accept p hu hp

/-! ### QUERY (R70, R180) -/

theorem stateCode_le (x : ChanState) : x.code ≤ 6 := by cases x <;> decide
theorem phaseCode_le (x : Phase) : x.code ≤ 5 := by cases x <;> decide

/-- The items of QUERY's aux B in their fields (R180). -/
theorem queryAuxB_fields (ch : Channel) (latch : Bool) (h : ch.queue.length ≤ 8) :
    ((queryAuxB ch latch).extractLsb' 0 3).toNat = ch.state.code ∧ (queryAuxB ch latch).getLsbD 3 = ch.atRest
      ∧ ((queryAuxB ch latch).extractLsb' 4 3).toNat = ch.pgn.phase.code
      ∧ ((queryAuxB ch latch).extractLsb' 8 4).toNat = ch.queue.length
      ∧ (queryAuxB ch latch).getLsbD 12 = ch.pgn.dirHigh ∧ (queryAuxB ch latch).getLsbD 13 = ch.positive
      ∧ (queryAuxB ch latch).getLsbD 14 = ch.headBound ∧ (queryAuxB ch latch).getLsbD 15 = ch.limp.qualified
      ∧ (queryAuxB ch latch).getLsbD 16 = ch.limn.qualified ∧ (queryAuxB ch latch).getLsbD 17 = latch := by
  have hstate := stateCode_le ch.state
  have hphase := phaseCode_le ch.pgn.phase
  have hrest := bitNat_le ch.atRest
  have hdir := bitNat_le ch.pgn.dirHigh
  have hpos := bitNat_le ch.positive
  have hbound := bitNat_le ch.headBound
  have hlimp := bitNat_le ch.limp.qualified
  have hlimn := bitNat_le ch.limn.qualified
  have hlatch := bitNat_le latch
  unfold queryAuxB
  refine ⟨?_, ?_, ?_, ?_, ?_, ?_, ?_, ?_, ?_, ?_⟩
  · rw [extract_auxNat]; omega
  · rw [getLsbD_auxNat (by decide)]; exact decide_bitNat (by omega)
  · rw [extract_auxNat]; omega
  · rw [extract_auxNat]; omega
  all_goals rw [getLsbD_auxNat (by decide)]; exact decide_bitNat (by omega)

/-- Settles O36: the take hands over one record, with the items as they stand. -/
theorem queryReportsTheChannel : Obligations.QueryReportsTheChannel := by
  intro s r ht hs hbounded c ch
  refine ⟨fun hbig => ?_, fun hsmall => ?_⟩
  · refine answers_record ht hs ?_
    rw [admitQuery, if_pos (show 8 ≤ recChannel r from hbig), refuse_plain ht]
  · have howner : admitQuery r (consume .ctrl s) = (consume .ctrl s).post
        ((s.done .ctrl ReqKind.query.code (recTag r) .ok .clear (chanByte c) (s.position c)
          (auxNat (isqrt ch.pgn.rateSq)) (queryAuxB ch s.estopLatch)).showing s c) := by
      rw [admitQuery, if_neg (by omega : ¬8 ≤ recChannel r), channelDone_taken ht, chan_consume]
      rfl
    refine (answers_record ht hs howner).imp fun t hc => ?_
    obtain ⟨hposting, htook, hframe⟩ := hc
    obtain ⟨h1, h2, h3, h4, h5, h6, h7, h8, h9, h10⟩ := queryAuxB_fields ch s.estopLatch (hbounded c)
    exact ⟨_, hposting, h1, h2, h3, h4, h5, h6, h7, h8, h9, h10, htook, hframe⟩

/-! ### RESUME (R61) -/

theorem resumable_iff {ch : Channel} : resumable ch = (ch.state == .held && ch.pgn.pulseEnd.isNone) := by
  unfold resumable Channel.atRest
  cases ch.state <;> rfl

/-- A channel still coming to rest cannot be resumed (R51, R61). -/
theorem not_resumable_of_comingToRest {ch : Channel} (h : ch.comingToRest = true) : resumable ch = false := by
  have := restedHalted_of_comingToRest h
  unfold restedHalted at this
  unfold resumable
  cases hr : ch.atRest <;> simp_all

/-- Settles O31: with the latch clear the named channels that are HELD and at rest become IDLE, which no pending HALT waits for. -/
theorem resumeMakesIdle : Obligations.ResumeMakesIdle := by
  intro s r ht hs named resumed
  refine ⟨fun hl => ?_, fun hl => ?_⟩
  · refine answers_record ht hs ?_
    have hl' : (consume .ctrl s).estopLatch = true := hl
    simp only [admitResume, hl', if_true, refuse_plain ht]
  · obtain ⟨hchan, hframe⟩ := resumed_spec (nodup_chansOf named) (consume .ctrl s)
    have hmask : (maskOf fun c => hasChan (recMask r 8) c && resumable ((consume .ctrl s).chan c)) = resumed := by
      simp only [resumed, named, resumable_iff, chan_consume]
    have howner : admitResume r (consume .ctrl s) = { consume .ctrl s with
        chans := ((chansOf named).foldl resumeChan (consume .ctrl s)).chans
        posting := s.posting ++ [s.done .ctrl ReqKind.resume.code (recTag r) .ok .clear 0 0 (auxMask resumed) 0] } := by
      have hl' : ¬(consume .ctrl s).estopLatch = true := by rw [show (consume .ctrl s).estopLatch = false from hl]; decide
      rw [← okDone_taken ht, admitResume, if_neg hl']
      show ((chansOf (recMask r 8)).foldl resumeChan (consume .ctrl s)).post _ = _
      rw [hmask, hframe]
      rfl
    have hget (c : Chan) : ((chansOf named).foldl resumeChan (consume .ctrl s)).chan c
        = if hasChan resumed c then { s.chan c with state := .idle } else s.chan c := by
      rw [hchan, chan_consume]
      simp only [mem_chansOf, Channel.afterResume, resumable_iff, resumed, hasChan_maskOf]
      cases hasChan named c <;> simp
    refine answers_owner ht howner ?_ fun stall irq messages => ?_
    · refine haltsSettled_of hs rfl fun c hc => ?_
      have hno : hasChan resumed c = false := by
        have hmoving : ((s.chan c).state == .held && (s.chan c).pgn.pulseEnd.isNone) = false := by
          rw [← resumable_iff]
          exact not_resumable_of_comingToRest hc
        rw [hasChan_maskOf, hmoving, Bool.and_false]
      have hsame := hget c
      rw [hno] at hsame
      exact (congrArg Channel.comingToRest hsame).trans hc
    · refine ⟨fun c hc => (hget c).trans (if_pos hc), fun c hc => (hget c).trans (if_neg ?_), rfl,
        consume_tookFrom s .ctrl, rfl⟩
      rw [hc]
      decide

/-! ### OVERRIDE_RATE (R47 to R49) -/

/-- The channel number refuses first, then the channel's own checks (R47). -/
theorem admitOverrideRate_refused {s : State} {r : Block} (h : recChannel r ≤ 7) {status : Status}
    (hx : overrideRefusal (s.chan (recChan r)) (blockField r 8 4) = some status) :
    admitOverrideRate r s = s.post (channelDone s .ctrl r status (recChan r) 0 0) := by
  simp only [admitOverrideRate, if_neg (by omega : ¬8 ≤ recChannel r), hx]

theorem admitOverrideRate_accepted {s : State} {r : Block} (h : recChannel r ≤ 7) {m : MoveEntry}
    (hx : overrideRefusal (s.chan (recChan r)) (blockField r 8 4) = none) (hm : (s.chan (recChan r)).headMove? = some m) :
    admitOverrideRate r s =
      let ch := overrideHead (s.chan (recChan r)) m (blockField r 8 4)
      (s.setChan (recChan r) ch).post (channelDone (s.setChan (recChan r) ch) .ctrl r .ok (recChan r)
        (auxNat m.profile.vc) (auxNat (exitTarget ch.binding m))) := by
  simp only [admitOverrideRate, if_neg (by omega : ¬8 ≤ recChannel r), hx, hm]

/-- A RUNNING channel has a MOVE at its head (R51). -/
theorem headMove_of_running {ch : Channel} (h : ch.shaped = true) (hst : ch.state = .running) :
    ∃ m, ch.headMove? = some m := by
  unfold Channel.shaped at h
  rw [hst] at h
  split at h <;> simp_all [Channel.headMove?]

section Override
variable {ch : Channel} {rate : Nat}

theorem overrideRefusal_range (h : ¬(1 ≤ rate ∧ rate ≤ 400000)) : overrideRefusal ch rate = some .badField :=
  if_pos (show rate < 1 ∨ 400000 < rate by omega)

theorem overrideRefusal_state (h1 : 1 ≤ rate) (h2 : rate ≤ 400000) (hst : ch.state ≠ .running) :
    overrideRefusal ch rate = some .notRunning := by
  exact (if_neg (show ¬(rate < 1 ∨ 400000 < rate) by omega)).trans (if_pos hst)

theorem overrideRefusal_head (h1 : 1 ≤ rate) (h2 : rate ≤ 400000) (hst : ch.state = .running) {m : MoveEntry}
    (hm : ch.headMove? = some m) :
    overrideRefusal ch rate = if ch.pgn.phase = .final then some .tooLate
      else if rate < m.profile.vs ∨ ch.cfg.maxRate < rate then some .badField else none := by
  refine (if_neg (show ¬(rate < 1 ∨ 400000 < rate) by omega)).trans ((if_neg (not_not.mpr hst)).trans ?_)
  rw [hm]

end Override

/-- The exit target in force after an accepted override is capped where the head is bound, and the head's Vs where it is not
(R20, R48). -/
theorem overrideHead_binding (ch : Channel) (m : MoveEntry) (vc : Nat) :
    (ch.headBound = false → (overrideHead ch m vc).binding = ch.binding
        ∧ exitTarget (overrideHead ch m vc).binding m = m.profile.vs)
      ∧ ∀ vt minimum place x ve next, ch.binding = .bound vt minimum place x → m.exitRate = some ve →
          ch.queue[place]? = some (.move next) →
          (overrideHead ch m vc).binding = .bound (max minimum (min (min ve vc) next.profile.vc)) minimum place x
          ∧ exitTarget (overrideHead ch m vc).binding m = max minimum (min (min ve vc) next.profile.vc) := by
  refine ⟨fun h => ?_, fun vt minimum place x ve next hb hve hq => ?_⟩
  · have hkeep : (overrideHead ch m vc).binding = ch.binding := by
      cases hb : ch.binding <;> simp_all [overrideHead, recap, Channel.headBound]
    rw [hkeep]
    refine ⟨rfl, ?_⟩
    cases hb : ch.binding <;> simp_all [exitTarget, Channel.headBound]
  · have hnew : (overrideHead ch m vc).binding = .bound (max minimum (min (min ve vc) next.profile.vc)) minimum place x := by
      simp [overrideHead, recap, hb, hve, placeVc?, hq]
    exact ⟨hnew, by rw [hnew]; rfl⟩

/-- Settles O32: the checks in their order, and an accepted override writes the head and its binding record. -/
theorem overrideRateRefusedOrAccepted : Obligations.OverrideRateRefusedOrAccepted := by
  refine ⟨fun s r ht hs hshaped => ?_, fun s r m ht hs hsmall => ?_⟩
  · intro c ch rate refusedWith refusal
    have hrefused (hsmall : recChannel r ≤ 7) (status : Status) (hx : overrideRefusal ch rate = some status) :
        refusedWith (refusal status) := by
      refine answers_record ht hs ?_
      rw [admitOverrideRate_refused hsmall (by rwa [chan_consume]), channelDone_taken ht]
    refine ⟨fun hbig => ?_, fun hsmall => ⟨fun hr => hrefused hsmall _ (overrideRefusal_range hr), fun h1 h2 =>
      ⟨fun hst => hrefused hsmall _ (overrideRefusal_state h1 h2 hst), fun hst hph => ?_, fun hst hph m hm hbad => ?_⟩⟩⟩
    · refine answers_record ht hs ?_
      rw [admitOverrideRate, if_pos (show 8 ≤ recChannel r from hbig), refuse_plain ht]
    · obtain ⟨m, hm⟩ := headMove_of_running (hshaped c) hst
      exact hrefused hsmall _ ((overrideRefusal_head h1 h2 hst hm).trans (if_pos hph))
    · exact hrefused hsmall _ ((overrideRefusal_head h1 h2 hst hm).trans ((if_neg hph).trans (if_pos hbad)))
  · intro c ch rate record h1 h2 hst hm hph hlow hhigh
    have hx : overrideRefusal ch rate = none :=
      (overrideRefusal_head h1 h2 hst hm).trans ((if_neg hph).trans (if_neg (by omega)))
    have howner : admitOverrideRate r (consume .ctrl s) = ((consume .ctrl s).setChan c (overrideHead ch m rate)).post
        (record (exitTarget (overrideHead ch m rate).binding m)) := by
      rw [admitOverrideRate_accepted hsmall (by rwa [chan_consume]) (by rwa [chan_consume]), chan_consume]
      have hdone := channelDone_taken ht .ok c (auxNat m.profile.vc) (auxNat (exitTarget (overrideHead ch m rate).binding m))
      simp only [record]
      rw [← hdone]
      have hpos : ((consume .ctrl s).setChan c (overrideHead ch m rate)).position c = (consume .ctrl s).position c := by
        rw [State.position, State.chan_setChan_self, State.position, chan_consume]
        rfl
      simp only [channelDone]
      rw [hpos]
      rfl
    have hself : ((consume .ctrl s).setChan c (overrideHead ch m rate)).chan c = overrideHead ch m rate :=
      State.chan_setChan_self _ _ _
    have hothers (d : Chan) (hd : d ≠ c) := (State.chan_setChan_of_ne (consume .ctrl s) hd
      (overrideHead ch m rate)).trans (chan_consume s .ctrl d)
    obtain ⟨hfree, hbound⟩ := overrideHead_binding ch m rate
    refine answers_owner ht howner ?_ fun stall irq messages => ?_
    · refine haltsSettled_of_chan (c := c) hs rfl hothers fun h => ?_
      simp [Channel.comingToRest, show (s.chan c).state = .running from hst] at h
    · refine ⟨congrArg Channel.queue hself, (congrArg Channel.pgn hself).trans rfl, (congrArg Channel.state hself).trans hst,
        fun hb => ⟨(congrArg Channel.binding hself).trans (hfree hb).1, ?_⟩,
        fun vt minimum place x ve next hb hve hq => ⟨(congrArg Channel.binding hself).trans (hbound _ _ _ _ _ _ hb hve hq).1, ?_⟩,
        ?_, hothers, consume_tookFrom s .ctrl, rfl⟩
      · rw [(hfree hb).2]
        rfl
      · rw [(hbound _ _ _ _ _ _ hb hve hq).2]
        rfl
      · refine hself.trans ?_
        show overrideHead ch m rate = { ch with
          queue := (((consume .ctrl s).setChan c (overrideHead ch m rate)).chan c).queue
          binding := (((consume .ctrl s).setChan c (overrideHead ch m rate)).chan c).binding }
        rw [hself]
        rfl

end Sys2Proof.Machine
end

section
/-! The takes of SET_WATCH, CLEAR_WATCH and SET_CHANNEL (O34, O35). -/

namespace Sys2Proof.Machine

/-! ### What a SET_WATCH record describes (R95, R179) -/

theorem littleEndian_lt : ∀ l : List Byte, littleEndian l < 256 ^ l.length
  | [] => Nat.one_pos
  | b :: bs => by
    have hb := b.isLt
    have hrest := littleEndian_lt bs
    rw [littleEndian, List.length_cons, pow_succ]
    omega

/-- A field of a block fits its bytes. -/
theorem blockField_lt (r : Block) (offset size : Nat) : blockField r offset size < 256 ^ size := by
  have h := littleEndian_lt ((List.range size).map fun i => blockByte r (offset + i))
  rwa [List.length_map, List.length_range] at h

theorem blockWord_eq_zero {r : Block} {offset : Nat} : blockWord r offset = 0 ↔ blockField r offset 4 = 0 := by
  have hlt := blockField_lt r offset 4
  rw [blockWord, ← BitVec.toNat_inj, BitVec.toNat_ofNat]
  show _ % 4294967296 = 0 ↔ _
  norm_num at hlt
  omega

theorem sense?_listed {b : Byte} (h : b = 1 ∨ b = 2 ∨ b = 3) :
    sense? b = some (if b = 1 then .up else if b = 2 then .down else .either) := by
  rcases h with rfl | rfl | rfl <;> rfl

theorem sense?_other {b : Byte} (h : ¬(b = 1 ∨ b = 2 ∨ b = 3)) : sense? b = none := by
  simp only [not_or] at h
  simp only [sense?, if_neg h.1, if_neg h.2.1, if_neg h.2.2]

theorem edge?_listed {b : Byte} (h : b = 1 ∨ b = 2 ∨ b = 3) :
    edge? b = some (if b = 1 then .rise else if b = 2 then .fall else .both) := by
  rcases h with rfl | rfl | rfl <;> rfl

theorem edge?_other {b : Byte} (h : ¬(b = 1 ∨ b = 2 ∨ b = 3)) : edge? b = none := by
  simp only [not_or] at h
  simp only [edge?, if_neg h.1, if_neg h.2.1, if_neg h.2.2]

theorem rearmMode?_listed {b : Byte} (h : b = 1 ∨ b = 2) : rearmMode? b = some (b == 2) := by
  rcases h with rfl | rfl <;> rfl

theorem rearmMode?_other {b : Byte} (h : ¬(b = 1 ∨ b = 2)) : rearmMode? b = none := by
  simp only [not_or] at h
  simp only [rearmMode?, if_neg h.1, if_neg h.2]

/-- The fields of a POSITION watch are good (R95). -/
def positionFields (r : Block) : Prop :=
  blockByte r 9 = 1 ∧ (blockByte r 10 = 1 ∨ blockByte r 10 = 2 ∨ blockByte r 10 = 3) ∧ blockByte r 11 = 0
    ∧ blockByte r 12 = 0
    ∧ ((blockByte r 13 = 1 ∧ blockField r 20 2 = 0) ∨ (blockByte r 13 = 2 ∧ 1 ≤ blockField r 20 2))

/-- The fields of an EDGE watch are good (R95). -/
def edgeFields (r : Block) : Prop :=
  blockByte r 9 = 2 ∧ blockByte r 10 = 0 ∧ (blockByte r 11).toNat ≤ 3
    ∧ (blockByte r 12 = 1 ∨ blockByte r 12 = 2 ∨ blockByte r 12 = 3) ∧ blockField r 16 4 = 0
    ∧ (blockByte r 13 = 1 ∨ blockByte r 13 = 2) ∧ blockField r 20 2 = 0

/-- The condition of a POSITION watch (R93, R95). -/
theorem recWatchCond?_position {r : Block} (h : positionFields r) :
    recWatchCond? r = some (.position (blockWord r 16)
      (if blockByte r 10 = 1 then .up else if blockByte r 10 = 2 then .down else .either)
      (if blockByte r 13 = 2 then some (blockField r 20 2) else none)) := by
  obtain ⟨h9, h10, h11, h12, h13⟩ := h
  have hmode : blockByte r 13 = 1 ∨ blockByte r 13 = 2 := h13.imp And.left And.left
  simp only [recWatchCond?, rearmMode?_listed hmode, sense?_listed h10, h9, h11, h12]
  rcases h13 with ⟨h13, hh⟩ | ⟨h13, hh⟩
  · simp [h13, hh]
  · simp [h13, Nat.one_le_iff_ne_zero.mp hh]

/-- The condition of an EDGE watch (R93, R95). -/
theorem recWatchCond?_edge {r : Block} (h : edgeFields r) (hlt : (blockByte r 11).toNat < 4) :
    recWatchCond? r = some (.edge ⟨(blockByte r 11).toNat, hlt⟩
      (if blockByte r 12 = 1 then .rise else if blockByte r 12 = 2 then .fall else .both) (blockByte r 13 == 2)) := by
  obtain ⟨h9, h10, h11, h12, h16, h13, hh⟩ := h
  simp only [recWatchCond?, rearmMode?_listed h13, edge?_listed h12, h9, h10, hlt, blockWord_eq_zero.mpr h16, hh]
  rfl

/-- A record whose fields are good for neither kind describes no condition (R95). -/
theorem recWatchCond?_bad {r : Block} (hp : ¬positionFields r) (he : ¬edgeFields r) : recWatchCond? r = none := by
  unfold recWatchCond?
  simp only
  by_cases h13 : blockByte r 13 = 1 ∨ blockByte r 13 = 2
  · rw [rearmMode?_listed h13]
    simp only
    split
    · rename_i h9
      by_cases h10 : blockByte r 10 = 1 ∨ blockByte r 10 = 2 ∨ blockByte r 10 = 3
      · rw [sense?_listed h10]
        simp only
        refine if_neg fun hc => hp ⟨h9, h10, hc.1, hc.2.1, ?_⟩
        obtain ⟨_, _, hrearm⟩ := hc
        rcases h13 with h13 | h13
        · rw [h13] at hrearm
          exact .inl ⟨h13, by simpa using hrearm⟩
        · rw [h13] at hrearm
          exact .inr ⟨h13, Nat.one_le_iff_ne_zero.mpr (hrearm.mp rfl)⟩
      · rw [sense?_other h10]
    · split
      · rename_i h9
        by_cases h12 : blockByte r 12 = 1 ∨ blockByte r 12 = 2 ∨ blockByte r 12 = 3
        · rw [edge?_listed h12]
          simp only
          split
          · rename_i hlt
            exact if_neg fun hc => he ⟨h9, hc.1, Nat.le_of_lt_succ hlt, h12, blockWord_eq_zero.mp hc.2.1, h13, hc.2.2⟩
          · rfl
        · rw [edge?_other h12]
      · rfl
  · rw [rearmMode?_other h13]

/-- The ARM target's fields are good (R95). -/
def armFields (r : Block) : Prop :=
  (blockByte r 26 = 0 ∧ blockByte r 27 = 0) ∨ (blockByte r 26 = 1 ∧ (blockByte r 27).toNat ≤ 15)

theorem recArm?_good {r : Block} (h : armFields r) :
    ∃ arm, recArm? r = some arm ∧ (blockByte r 26 = 0 → arm = none)
      ∧ (blockByte r 26 = 1 → ∃ j : WatchIx, arm = some j ∧ j.val = (blockByte r 27).toNat) := by
  rcases h with ⟨h26, h27⟩ | ⟨h26, h27⟩
  · exact ⟨none, by simp [recArm?, h26, h27], fun _ => rfl, fun h => absurd (h26.symm.trans h) (by decide)⟩
  · refine ⟨some ⟨(blockByte r 27).toNat, by omega⟩, ?_, fun h => absurd (h26.symm.trans h) (by decide),
      fun _ => ⟨_, rfl, rfl⟩⟩
    simp [recArm?, h26, index16?_eq (i := ⟨(blockByte r 27).toNat, by omega⟩) rfl]

theorem recArm?_bad {r : Block} (h : ¬armFields r) : recArm? r = none := by
  simp only [armFields, not_or, not_and] at h
  unfold recArm?
  split
  · rename_i h26
    exact if_neg (h.1 h26)
  · split
    · rename_i h26
      rw [index16?_eq_none (by have := h.2 h26; omega)]
    · rfl

/-- The other checks of a SET_WATCH record (R95). -/
def watchFields (r : Block) : Prop :=
  recChannel r < 8 ∧ recMask r 24 &&& recMask r 25 = 0 ∧ flagField (blockByte r 14) = true
    ∧ flagField (blockByte r 15) = true

/-- The watch of a record that passes every check (R95). -/
def watchOf (r : Block) (cond : WatchCond) (arm : Option WatchIx) : Watch where
  state := if blockByte r 15 = 1 then .armed else .dormant
  channel := recChan r
  cond := cond
  notify := blockByte r 14 == 1
  decel := recMask r 22
  abrupt := recMask r 23
  auxSet := recMask r 24
  auxClear := recMask r 25
  arm := arm

theorem recWatch?_good {r : Block} {i : WatchIx} {cond : WatchCond} {arm : Option WatchIx}
    (hi : i.val = (blockByte r 8).toNat) (hc : recWatchCond? r = some cond) (ha : recArm? r = some arm)
    (hw : watchFields r) : recWatch? r = some (i, watchOf r cond arm) := by
  simp only [recWatch?, index16?_eq hi, hc, ha]
  exact if_pos hw

/-- A record that fails a check describes no watch (R95). -/
theorem recWatch?_bad {r : Block}
    (h : 15 < (blockByte r 8).toNat ∨ recWatchCond? r = none ∨ recArm? r = none ∨ ¬watchFields r) : recWatch? r = none := by
  unfold recWatch?
  split
  · rename_i hi hc ha
    rcases h with h | h | h | h
    · rw [index16?_eq_none h] at hi; cases hi
    · rw [h] at hc; cases hc
    · rw [h] at ha; cases ha
    · exact if_neg h
  · rfl

/-- What a take does to the rings is seen in the two rings alone (R123). -/
theorem tookFrom_of_rings {s t : State} {ring : Ring} (hm : t.mainRing = (consume ring s).mainRing)
    (hc : t.ctrlRing = (consume ring s).ctrlRing) : TookFrom s t ring := by
  have h := consume_tookFrom s ring
  have hring (x : Ring) : t.ring x = (consume ring s).ring x := by cases x <;> assumption
  exact ⟨(hring ring).trans h.1, fun other ho => (hring other).trans (h.2 other ho)⟩

/-- A SET_WATCH that its owner takes writes one watch (R96). -/
theorem answers_setWatch {s : State} {r : Block} (ht : Taken s .ctrl .setWatch r) (hs : s.haltsSettled) {i : WatchIx}
    {w : Watch} (hw : recWatch? r = some (i, w)) :
    Answers (exec (.setWatch .ctrl) s) fun t =>
      t.watches[i] = some w ∧ (∀ j : WatchIx, j ≠ i → t.watches[j] = s.watches[j])
      ∧ t.posting = s.posting ++ [(s.done .ctrl ReqKind.setWatch.code (recTag r) .ok .clear (chanByte w.channel)
          (s.position w.channel) (auxNat i.val) (auxNat (watchCode (s.watches[i])))).showing s w.channel]
      ∧ TookFrom s t .ctrl
      ∧ t = { s with
          watches := t.watches, mainRing := t.mainRing, ctrlRing := t.ctrlRing, posting := t.posting,
          stall := t.stall, irq := t.irq, messages := t.messages } := by
  have howner : admitSetWatch r (consume .ctrl s) = { s with
      mainRing := (consume .ctrl s).mainRing, ctrlRing := (consume .ctrl s).ctrlRing
      watches := (s.setWatch i (some w)).watches
      posting := s.posting ++ [(s.done .ctrl ReqKind.setWatch.code (recTag r) .ok .clear (chanByte w.channel)
        (s.position w.channel) (auxNat i.val) (auxNat (watchCode (s.watches[i])))).showing s w.channel] } := by
    rw [← channelDone_taken ht]
    simp only [admitSetWatch, hw]
    rfl
  refine answers_owner ht howner ?_ fun stall irq messages => ?_
  · exact haltsSettled_of hs rfl fun _ h => h
  exact ⟨(s.watches_setWatch_get i i (some w)).trans (if_pos rfl), fun j hj => (s.watches_setWatch_get i j (some w)).trans (if_neg hj),
    rfl, tookFrom_of_rings rfl rfl, rfl⟩

/-- A CLEAR_WATCH of a good index empties one watch (R97). -/
theorem answers_clearWatch {s : State} {r : Block} (ht : Taken s .ctrl .clearWatch r) (hs : s.haltsSettled) {i : WatchIx}
    (hi : i.val = (blockByte r 8).toNat) :
    Answers (exec (.clearWatch .ctrl) s) fun t =>
      t.watches[i] = none ∧ (∀ j : WatchIx, j ≠ i → t.watches[j] = s.watches[j])
      ∧ t.posting = s.posting ++ [s.done .ctrl ReqKind.clearWatch.code (recTag r) .ok .clear 0 0 (auxNat i.val)
          (auxNat (watchCode (s.watches[i])))]
      ∧ TookFrom s t .ctrl
      ∧ t = { s with
          watches := t.watches, mainRing := t.mainRing, ctrlRing := t.ctrlRing, posting := t.posting,
          stall := t.stall, irq := t.irq, messages := t.messages } := by
  have howner : admitClearWatch r (consume .ctrl s) = { s with
      mainRing := (consume .ctrl s).mainRing, ctrlRing := (consume .ctrl s).ctrlRing
      watches := (s.setWatch i none).watches
      posting := s.posting ++ [s.done .ctrl ReqKind.clearWatch.code (recTag r) .ok .clear 0 0 (auxNat i.val)
        (auxNat (watchCode (s.watches[i])))] } := by
    rw [← okDone_taken ht]
    simp only [admitClearWatch, index16?_eq hi]
    rfl
  refine answers_owner ht howner ?_ fun stall irq messages => ?_
  · exact haltsSettled_of hs rfl fun _ h => h
  exact ⟨(s.watches_setWatch_get i i none).trans (if_pos rfl), fun j hj => (s.watches_setWatch_get i j none).trans (if_neg hj),
    rfl, tookFrom_of_rings rfl rfl, rfl⟩

/-- Settles O34: a SET_WATCH record is good exactly where each check of R95 passes, and either request writes one watch. -/
theorem watchRequestsWriteTheTable : Obligations.WatchRequestsWriteTheTable := by
  refine ⟨fun s r ht hs => ?_, fun s r ht hs => ⟨fun i hi => ?_, fun hbig => ?_⟩⟩
  · intro byte rearm h position edge good
    refine ⟨fun hgood => ?_, fun hbad => ?_⟩
    · obtain ⟨h8, hch, hcond, h14, h15, hmask, harm⟩ := hgood
      obtain ⟨arm, harm, ha0, ha1⟩ := recArm?_good harm
      have hfields : watchFields r := ⟨by omega, hmask, flagField_iff.mpr h14, flagField_iff.mpr h15⟩
      have hi : (⟨(blockByte r 8).toNat, Nat.lt_succ_of_le h8⟩ : WatchIx).val = (blockByte r 8).toNat := rfl
      have hchan : (recChan r).val = recChannel r := Nat.mod_eq_of_lt (by omega)
      rcases hcond with hp | he
      · have hw := recWatch?_good hi (recWatchCond?_position hp) harm hfields
        refine ⟨⟨(blockByte r 8).toNat, Nat.lt_succ_of_le h8⟩, watchOf r _ arm, hi, hchan, rfl, rfl, rfl, rfl, rfl, rfl, ha0, ha1, fun _ => rfl, fun h9 => ?_, answers_setWatch ht hs hw⟩
        exact absurd (hp.1.symm.trans h9) (by decide)
      · have hlt : (blockByte r 11).toNat < 4 := Nat.lt_succ_of_le he.2.2.1
        have hw := recWatch?_good hi (recWatchCond?_edge he hlt) harm hfields
        refine ⟨⟨(blockByte r 8).toNat, Nat.lt_succ_of_le h8⟩, watchOf r _ arm, hi, hchan, rfl, rfl, rfl, rfl, rfl, rfl, ha0, ha1, fun h9 => ?_, fun _ => ⟨_, rfl, rfl⟩,
          answers_setWatch ht hs hw⟩
        exact absurd (he.1.symm.trans h9) (by decide)
    · have hnone : recWatch? r = none := by
        refine recWatch?_bad ?_
        by_contra hall
        simp only [not_or, not_not] at hall
        obtain ⟨h8, hcond, harm, hch, hmask, h14, h15⟩ := hall
        refine hbad ⟨Nat.le_of_not_lt h8, by omega, ?_, flagField_iff.mp h14, flagField_iff.mp h15, hmask,
          Classical.byContradiction fun h => harm (recArm?_bad h)⟩
        by_contra hneither
        obtain ⟨hp, he⟩ := not_or.mp hneither
        exact hcond (recWatchCond?_bad hp he)
      exact answers_record ht hs (by simp only [admitSetWatch, hnone, refuse_plain ht])
  · exact answers_clearWatch ht hs hi
  · exact answers_record ht hs (by simp only [admitClearWatch, index16?_eq_none hbig, refuse_plain ht])

/-! ### SET_CHANNEL (R62 to R64) -/

theorem blockField_one (r : Block) (i : Nat) : blockField r i 1 = (blockByte r i).toNat := by
  simp [blockField, littleEndian, List.range_succ]

/-- The fields of a SET_CHANNEL record are good (R52, R62). -/
def channelFields (r : Block) : Prop :=
  (blockByte r 8 = 0 ∨ blockByte r 8 = 1) ∧ 1 ≤ (blockByte r 9).toNat ∧ (blockByte r 9).toNat ≤ 63
    ∧ 1 ≤ (blockByte r 10).toNat ∧ 1 ≤ blockField r 12 4 ∧ blockField r 12 4 ≤ 400000
    ∧ blockField r 12 4 ≤ 500000 / (blockByte r 9).toNat ∧ (blockWord r 16).toInt ≤ (blockWord r 20).toInt
    ∧ (blockByte r 24 = 1 ∨ blockByte r 24 = 2) ∧ (blockByte r 25 = 0 ∨ blockByte r 25 = 1)
    ∧ (blockByte r 26 = 0 ∨ blockByte r 26 = 1) ∧ (blockByte r 27 = 1 ∨ blockByte r 27 = 2)

/-- The checks of the coded fields and of the values are those of R52 and R62. -/
theorem channelFields_iff {r : Block} : channelFields r ↔ recConfigCoded r = true ∧ (recConfig r).valid = true := by
  have hdir := (blockByte r 10).isLt
  have hfilter := (blockByte r 11).isLt
  have hmin := (blockWord r 16).le_toInt
  have hmax := (blockWord r 20).toInt_lt
  norm_num at hmin hmax
  have hcoded : recConfigCoded r = true ↔ (((flagField (blockByte r 8) = true ∧ (blockByte r 24 = 1 ∨ blockByte r 24 = 2))
      ∧ flagField (blockByte r 25) = true) ∧ flagField (blockByte r 26) = true)
      ∧ (blockByte r 27 = 1 ∨ blockByte r 27 = 2) := by
    simp only [recConfigCoded, Bool.and_eq_true, Bool.or_eq_true, beq_iff_eq]
  rw [hcoded]
  simp only [flagField_iff, ChanConfig.valid, recConfig, Bool.and_eq_true, decide_eq_true_eq, blockField_one,
    Config.rateMax, channelFields]
  constructor
  · rintro ⟨h8, h9, h9', h10, h12, h12', h12'', hrange, h24, h25, h26, h27⟩
    exact ⟨⟨⟨⟨⟨h8, h24⟩, h25⟩, h26⟩, h27⟩, ⟨⟨⟨⟨⟨⟨⟨⟨⟨h9, h9'⟩, h10⟩, by omega⟩, h12⟩, h12'⟩, h12''⟩, hmin⟩, hrange⟩, by omega⟩,
      by omega⟩
  · rintro ⟨⟨⟨⟨⟨h8, h24⟩, h25⟩, h26⟩, h27⟩, ⟨⟨⟨⟨⟨⟨⟨⟨⟨h9, h9'⟩, h10⟩, _⟩, h12⟩, h12'⟩, h12''⟩, _⟩, hrange⟩, _⟩, _⟩
    exact ⟨h8, h9, h9', h10, h12, h12', h12'', hrange, h24, h25, h26, h27⟩

/-- The configuration a SET_CHANNEL record holds, field by field (R179). -/
theorem recConfig_eq (r : Block) : recConfig r = {
    enable := blockByte r 8 == 1, pulseWidth := (blockByte r 9).toNat, dirSettle := (blockByte r 10).toNat
    maxRate := blockField r 12 4, softMin := (blockWord r 16).toInt, softMax := (blockWord r 20).toInt
    limitFilter := (blockByte r 11).toNat, limitPolarity := if blockByte r 24 = 2 then .activeHigh else .activeLow
    limpEnable := blockByte r 25 == 1, limnEnable := blockByte r 26 == 1
    dirPolarity := if blockByte r 27 = 2 then .posLow else .posHigh } := by
  simp only [recConfig, blockField_one, beq_iff_eq]

theorem configurable_iff {ch : Channel} : configurable ch = true
    ↔ ch.state = .disabled ∨ ch.state = .idle ∨ (ch.state = .held ∧ ch.pgn.pulseEnd = none) := by
  unfold configurable Channel.atRest
  cases ch.state <;> simp

/-- A limit qualifier under a new polarity takes its pin's level, and is else as it was (R63, R64). -/
theorem repolarize_spec (old new : LimitPolarity) (q : Qual) :
    (new = old → repolarize old new q = q) ∧ (new ≠ old → repolarize old new q
      = { q with before := none, qualified := if new = .activeHigh then q.level else !q.level }) := by
  refine ⟨fun h => if_pos h, fun h => (if_neg h).trans ?_⟩
  cases new <;> rfl

/-- The state after an accepted SET_CHANNEL, by the enable field (R63). -/
theorem enabledState_spec (found : ChanState) (latch : Bool) :
    enabledState found false latch = .disabled
      ∧ enabledState .disabled true latch = (if latch then .held else .idle)
      ∧ (found ≠ .disabled → enabledState found true latch = found) := by
  refine ⟨rfl, by cases latch <;> rfl, fun h => if_neg h⟩

/-- Settles O35: the fields first, then the channel's state, and an accepted record configures one channel. -/
theorem setChannelConfiguresOrRefuses : Obligations.SetChannelConfiguresOrRefuses := by
  intro s r ht hs c ch byte num flag code good cfg free follows refusedWith
  have hgood : good ↔ recChannel r ≤ 7 ∧ recConfigCoded r = true ∧ (recConfig r).valid = true :=
    and_congr_right fun _ => channelFields_iff
  have hcfg : recConfig r = cfg := recConfig_eq r
  refine ⟨fun hbad => ?_, fun hg hfree => ?_, fun hg hfree => ?_⟩
  · refine answers_record ht hs ?_
    rw [admitSetChannel, if_pos, refuse_plain ht]
    by_contra hall
    simp only [not_or, not_not] at hall
    exact hbad (hgood.mpr ⟨by omega, hall.2⟩)
  all_goals
    obtain ⟨hsmall, hcoded, hvalid⟩ := hgood.mp hg
    have hpass : ¬(8 ≤ recChannel r ∨ ¬recConfigCoded r = true ∨ ¬(recConfig r).valid = true) := by
      simp only [not_or, not_not]
      exact ⟨by omega, hcoded, hvalid⟩
  · have hbusy : configurable ch = false := Bool.eq_false_iff.mpr fun h => hfree (configurable_iff.mp h)
    refine answers_record ht hs ?_
    simp only [admitSetChannel, if_neg hpass, chan_consume]
    rw [if_pos (by rw [show configurable (s.chan (recChan r)) = false from hbusy]; rfl), refuse_plain ht]
  · have hok : configurable ch = true := configurable_iff.mpr hfree
    have howner : admitSetChannel r (consume .ctrl s)
        = ((consume .ctrl s).setChan c (configure ch cfg s.estopLatch)).post
          ((s.done .ctrl ReqKind.setChannel.code (recTag r) .ok .clear (chanByte c) (s.position c)
            (auxNat ch.state.code) (auxNat (configure ch cfg s.estopLatch).state.code)).showing s c) := by
      have hpos : ((consume .ctrl s).setChan c (configure ch cfg s.estopLatch)).position c = (consume .ctrl s).position c := by
        rw [State.position, State.chan_setChan_self, State.position, chan_consume]
        rfl
      simp only [admitSetChannel, if_neg hpass, chan_consume]
      rw [if_neg (by rw [show configurable (s.chan (recChan r)) = true from hok]; decide), ← channelDone_taken ht, hcfg]
      simp only [channelDone]
      rw [← hpos]
      rfl
    have hself : ((consume .ctrl s).setChan c (configure ch cfg s.estopLatch)).chan c = configure ch cfg s.estopLatch :=
      State.chan_setChan_self _ _ _
    have hothers (d : Chan) (hd : d ≠ c) := (State.chan_setChan_of_ne (consume .ctrl s) hd
      (configure ch cfg s.estopLatch)).trans (chan_consume s .ctrl d)
    have hstate : (configure ch cfg s.estopLatch).state = enabledState ch.state cfg.enable s.estopLatch := rfl
    have henable (h : byte 8 = 1) : cfg.enable = true := by simpa [cfg] using h
    have hdisable (h : byte 8 = 0) : cfg.enable = false := by simp [cfg, h]
    refine answers_owner ht howner ?_ fun stall irq messages => ?_
    · refine haltsSettled_of_chan (c := c) hs rfl hothers fun h => ?_
      exfalso
      rcases hfree with hst | hst | ⟨hst, hlow⟩
      · simp [Channel.comingToRest, show (s.chan c).state = .disabled from hst] at h
      · simp [Channel.comingToRest, show (s.chan c).state = .idle from hst] at h
      · simp [Channel.comingToRest, show (s.chan c).state = .held from hst, show (s.chan c).pgn.pulseEnd = none from hlow] at h
    · refine ⟨congrArg Channel.cfg hself, fun h => (congrArg Channel.state hself).trans ?_,
        fun h hst => (congrArg Channel.state hself).trans ?_, fun h hst => (congrArg Channel.state hself).trans ?_,
        ?_, ?_, ?_, ?_, hothers, tookFrom_of_rings rfl rfl, rfl⟩
      · rw [hstate, hdisable h]
        exact (enabledState_spec _ _).1
      · rw [hstate, henable h, hst]
        exact (enabledState_spec .disabled _).2.1
      · rw [hstate, henable h]
        exact (enabledState_spec _ _).2.2 hst
      · show follows ch.limp (((consume .ctrl s).setChan c (configure ch cfg s.estopLatch)).chan c).limp
        rw [hself]
        exact repolarize_spec _ _ _
      · show follows ch.limn (((consume .ctrl s).setChan c (configure ch cfg s.estopLatch)).chan c).limn
        rw [hself]
        exact repolarize_spec _ _ _
      · refine hself.trans ?_
        show configure ch cfg s.estopLatch = { ch with
          cfg := (((consume .ctrl s).setChan c (configure ch cfg s.estopLatch)).chan c).cfg
          state := (((consume .ctrl s).setChan c (configure ch cfg s.estopLatch)).chan c).state
          limp := (((consume .ctrl s).setChan c (configure ch cfg s.estopLatch)).chan c).limp
          limn := (((consume .ctrl s).setChan c (configure ch cfg s.estopLatch)).chan c).limn }
        rw [hself]
        rfl
      · show s.posting ++ [(s.done .ctrl ReqKind.setChannel.code (recTag r) .ok .clear (chanByte c) (s.position c)
            (auxNat ch.state.code) (auxNat (configure ch cfg s.estopLatch).state.code)).showing s c]
          = s.posting ++ [(s.done .ctrl ReqKind.setChannel.code (recTag r) .ok .clear (chanByte c) (s.position c)
            (auxNat ch.state.code)
            (auxNat (((consume .ctrl s).setChan c (configure ch cfg s.estopLatch)).chan c).state.code)).showing s c]
        rw [hself]

end Sys2Proof.Machine
end

section
/-! The entries of a channel at rest, each in one equation, and the emission of a step that fires no watch. -/

namespace Sys2Proof.Machine

/-! ### A channel written twice -/

@[simp] theorem State.setChan_setChan (s : State) (c : Chan) (x y : Channel) :
    (s.setChan c x).setChan c y = s.setChan c y := by
  simp [State.setChan]

@[simp] theorem State.position_setChan_self (s : State) (c : Chan) (x : Channel) :
    (s.setChan c x).position c = x.pgn.position := by
  rw [State.position, State.chan_setChan_self]

/-! ### The emission of a step (R31, R33) -/

/-- The step that an emission replaces bears on nothing. -/
theorem emitStep_scheduled (c : Chan) (rateSq : Nat) (s : State) (z : Channel) (x : Option Sched) :
    emitStep c rateSq (s.setChan c { z with pgn := { z.pgn with schedule := x } }) = emitStep c rateSq (s.setChan c z) := by
  simp only [emitStep, State.chan_setChan_self, State.setChan_setChan, State.now_setChan]
  rfl

/-- The position of a channel after one more step (R33). -/
def Channel.nextPosition (ch : Channel) : Word := if ch.positive then ch.pgn.position + 1 else ch.pgn.position - 1

/-- What a step does to the counts, the pulse and the direction of its channel (R32, R33). -/
theorem afterEmit_spec (ch : Channel) (now rateSq : Nat) :
    (ch.afterEmit now rateSq).pgn.position = ch.nextPosition
      ∧ (ch.afterEmit now rateSq).positive = ch.positive
      ∧ (ch.afterEmit now rateSq).pgn.pulseEnd = some (now + 40 * ch.cfg.pulseWidth)
      ∧ (ch.afterEmit now rateSq).pgn.rateSq = rateSq ∧ (ch.afterEmit now rateSq).pgn.emitted = ch.pgn.emitted + 1
      ∧ (ch.afterEmit now rateSq).pgn.remaining = ch.pgn.remaining - 1
      ∧ (ch.afterEmit now rateSq).pgn.dirHigh = ch.pgn.dirHigh
      ∧ (ch.afterEmit now rateSq).pgn.settleEnd = ch.pgn.settleEnd
      ∧ ch.afterEmit now rateSq
        = { ch with binding := (ch.afterEmit now rateSq).binding, pgn := (ch.afterEmit now rateSq).pgn } := by
  rw [afterEmit_frame]
  refine ⟨rfl, rfl, ?_, rfl, rfl, rfl, rfl, rfl, rfl⟩
  simp only [stepEdge, usCycles_eq]

/-- The emission of a step, in one equation (R33). -/
theorem emitStep_eq (c : Chan) (rateSq : Nat) (s : State) :
    emitStep c rateSq s
      = ((s.setChan c ((s.chan c).afterEmit s.now rateSq)).showStep c (s.chan c).nextPosition,
        [.stepped c (s.chan c).nextPosition (s.chan c).positive]) := by
  obtain ⟨hpos, hdir, _⟩ := afterEmit_spec (s.chan c) s.now rateSq
  rw [← hpos, ← hdir]
  rfl

/-- A state after channel c has emitted a step on which no watch fires (R33, R99, R101). -/
def State.emitted (s : State) (c : Chan) (rateSq : Nat) : State :=
  rearmCooling c (s.chan c).nextPosition
    ((s.setChan c ((s.chan c).afterEmit s.now rateSq)).showStep c (s.chan c).nextPosition)

/-- A step on which no watch fires sends nothing on. -/
theorem settle_emitStep {c : Chan} {rateSq : Nat} {s : State}
    (h : NoneFires s c (s.chan c).nextPosition (s.chan c).positive) :
    (emitStep c rateSq s).settle = s.emitted c rateSq := by
  have hnone : NoneFires ((s.setChan c ((s.chan c).afterEmit s.now rateSq)).showStep c (s.chan c).nextPosition) c
      (s.chan c).nextPosition (s.chan c).positive := h
  rw [emitStep_eq, settle_stepped, takeStep_none hnone]
  rfl

/-- What such a step changes. -/
theorem emitted_spec (s : State) (c : Chan) (rateSq : Nat) :
    (s.emitted c rateSq).chan c = (s.chan c).afterEmit s.now rateSq
      ∧ (∀ d, d ≠ c → (s.emitted c rateSq).chan d = s.chan d)
      ∧ Rearmed s (s.emitted c rateSq) c (s.chan c).nextPosition
      ∧ (s.emitted c rateSq).posting = s.posting.map (fun r => r.atStep c s.now (s.chan c).nextPosition)
      ∧ s.emitted c rateSq = { s with
        chans := (s.emitted c rateSq).chans, watches := (s.emitted c rateSq).watches
        posting := (s.emitted c rateSq).posting } := by
  obtain ⟨hrearmed, hframe⟩ := rearmCooling_rearmed c (s.chan c).nextPosition
    ((s.setChan c ((s.chan c).afterEmit s.now rateSq)).showStep c (s.chan c).nextPosition)
  have hemitted : s.emitted c rateSq = { s with
      chans := (s.setChan c ((s.chan c).afterEmit s.now rateSq)).chans, watches := (s.emitted c rateSq).watches
      posting := s.posting.map fun r => r.atStep c s.now (s.chan c).nextPosition } := hframe
  have hchan (d : Chan) : (s.emitted c rateSq).chan d = (s.setChan c ((s.chan c).afterEmit s.now rateSq)).chan d := by
    rw [hemitted]
    rfl
  refine ⟨?_, fun d hd => ?_, hrearmed, by rw [hemitted], by rw [hemitted]⟩
  · rw [hchan, State.chan_setChan_self]
  · rw [hchan, State.chan_setChan_of_ne s hd]

/-! ### Boundary 0 and the first step (R35, R45) -/

theorem holdUntil_boundaryZero (ch : Channel) (u : Nat) : holdUntil (boundaryZero ch u) = holdUntil ch := by
  rw [boundaryZero_frame]
  rfl

/-- Under the hold after an abrupt stop the first step is scheduled for its end (R45). -/
theorem firstStep_held {c : Chan} {entrySq : Nat} {s : State} (h : s.now < holdUntil (s.chan c)) :
    firstStep c entrySq s = (s.setChan c { boundaryZero (s.chan c) entrySq with
      pgn := { (boundaryZero (s.chan c) entrySq).pgn with
        schedule := some { due := holdUntil (s.chan c), rateSq := entrySq } } }, []) := by
  simp only [firstStep, holdUntil_boundaryZero, h, if_true]

/-- Otherwise the first step is emitted at once (R35). -/
theorem firstStep_now {c : Chan} {entrySq : Nat} {s : State} (h : holdUntil (s.chan c) ≤ s.now) :
    firstStep c entrySq s = emitStep c entrySq (s.setChan c (boundaryZero (s.chan c) entrySq)) := by
  simp only [firstStep, holdUntil_boundaryZero, Nat.not_lt.mpr h, if_false]

/-- What the first step of a segment does at once, where it fires no watch: channel c stands as `z` before its boundary 0, and
emits the step (R33, R35). -/
structure FirstStepped (c : Chan) (z : Channel) (entrySq : Nat) (v u : State) : Prop where
  chan : u.chan c = (boundaryZero z entrySq).afterEmit v.now entrySq
  kept : u.chan c = { boundaryZero z entrySq with binding := (u.chan c).binding, pgn := (u.chan c).pgn }
  position : u.position c = z.nextPosition
  rate : (u.chan c).pgn.rateSq = entrySq
  pulse : (u.chan c).pgn.pulseEnd = some (v.now + 40 * z.cfg.pulseWidth)
  emitted : (u.chan c).pgn.emitted = z.pgn.emitted + 1
  remaining : (u.chan c).pgn.remaining = z.pgn.remaining - 1
  dir : (u.chan c).pgn.dirHigh = z.pgn.dirHigh
  settleEnd : (u.chan c).pgn.settleEnd = z.pgn.settleEnd
  rearmed : Rearmed v u c z.nextPosition
  posting : u.posting = v.posting.map fun r => r.atStep c v.now z.nextPosition
  others : ∀ d, d ≠ c → u.chan d = v.chan d
  frame : u = { v with chans := u.chans, watches := u.watches, posting := u.posting }

theorem firstStep_quiet {c : Chan} {z : Channel} {entrySq : Nat} {v : State} (hle : holdUntil z ≤ v.now)
    (hquiet : NoneFires v c z.nextPosition z.positive) :
    FirstStepped c z entrySq v (firstStep c entrySq (v.setChan c z)).settle := by
  have hzero := boundaryZero_frame z entrySq
  have hchan0 : (v.setChan c z).chan c = z := v.chan_setChan_self c z
  have hchan1 : (v.setChan c (boundaryZero z entrySq)).chan c = boundaryZero z entrySq := v.chan_setChan_self c _
  have hpositive : (boundaryZero z entrySq).positive = z.positive := by rw [hzero]; rfl
  have hnext : (boundaryZero z entrySq).nextPosition = z.nextPosition := by rw [hzero]; rfl
  have hemits : (firstStep c entrySq (v.setChan c z)).settle = (v.setChan c (boundaryZero z entrySq)).emitted c entrySq := by
    rw [firstStep_now (by rw [hchan0]; exact hle), hchan0, State.setChan_setChan]
    refine settle_emitStep ?_
    rw [hchan1, hnext, hpositive]
    exact hquiet
  obtain ⟨hchan, hsame, hrearmed, hposting, hframe⟩ := emitted_spec (v.setChan c (boundaryZero z entrySq)) c entrySq
  rw [hchan1] at hchan hrearmed hposting
  rw [hnext] at hrearmed hposting
  obtain ⟨hpos, _, hpulse, hrate, hemit, hleft, hdir, hsettle, hkeep⟩ := afterEmit_spec (boundaryZero z entrySq) v.now entrySq
  have hu : (v.setChan c (boundaryZero z entrySq)).emitted c entrySq = { v with
      chans := ((v.setChan c (boundaryZero z entrySq)).emitted c entrySq).chans
      watches := ((v.setChan c (boundaryZero z entrySq)).emitted c entrySq).watches
      posting := ((v.setChan c (boundaryZero z entrySq)).emitted c entrySq).posting } := hframe
  have hothers (d : Chan) (hd : d ≠ c) := (hsame d hd).trans (State.chan_setChan_of_ne v hd _)
  rw [hemits]
  generalize (v.setChan c (boundaryZero z entrySq)).emitted c entrySq = u at *
  replace hchan : u.chan c = (boundaryZero z entrySq).afterEmit v.now entrySq := hchan
  exact {
    chan := hchan
    kept := by rw [hchan]; exact hkeep
    position := by rw [State.position, hchan, hpos, hnext]
    rate := by rw [hchan, hrate]
    pulse := by rw [hchan, hpulse, hzero]
    emitted := by rw [hchan, hemit, hzero]
    remaining := by rw [hchan, hleft, hzero]
    dir := by rw [hchan, hdir, hzero]
    settleEnd := by rw [hchan, hsettle, hzero]
    rearmed := hrearmed
    posting := hposting
    others := hothers
    frame := hu }

/-- Settled HALTs stay so, where the channel of the first step is not one that a HALT waits for (R60). -/
theorem FirstStepped.haltsSettled {c : Chan} {z : Channel} {entrySq : Nat} {s v u : State}
    (h : FirstStepped c z entrySq v u) (hs : s.haltsSettled) (hh : v.halts = s.halts) (ho : ∀ d, d ≠ c → v.chan d = s.chan d)
    (hc : (s.chan c).comingToRest = false) : u.haltsSettled :=
  haltsSettled_of_chan hs (by rw [h.frame, hh]) (fun d hd => (h.others d hd).trans (ho d hd)) fun ht => by
    rw [hc] at ht
    cases ht

/-! ### The entries of a channel at rest (R9, R13 to R19) -/

theorem runHead_nil (c : Chan) (s : State) : runHead c [] s = (s.setChan c ((s.chan c).emptied .idle), []) := rfl

theorem runHead_dwell (c : Chan) (tag : Word) (duration : Nat) (rest : List Entry) (s : State) :
    runHead c (.dwell tag duration :: rest) s
      = (s.setChan c { (s.chan c).emptied .dwelling with
          queue := .dwell tag duration :: rest, dwellStart := some s.now }, []) := rfl

theorem runHead_marker (c : Chan) (i : SlotIx) (rest : List Entry) (s : State) :
    runHead c (.marker i :: rest) s
      = (s.setChan c { (s.chan c).emptied .waiting with queue := .marker i :: rest }, [.arrive c i]) := rfl

/-- A SET_POSITION loads the position and tests the COOLING watches (R17, R102). -/
theorem runSetPosition_spec (c : Chan) (tag value : Word) (s : State) :
    (runSetPosition c tag value s).chan c = { s.chan c with pgn := { (s.chan c).pgn with position := value } }
      ∧ (∀ d, d ≠ c → (runSetPosition c tag value s).chan d = s.chan d)
      ∧ Rearmed s (runSetPosition c tag value s) c value
      ∧ (runSetPosition c tag value s).posting = s.posting ++ [s.done .main ReqKind.setPosition.code tag .ok .clear
          (chanByte c) value (s.position c) 0]
      ∧ runSetPosition c tag value s = { s with
        chans := (runSetPosition c tag value s).chans, watches := (runSetPosition c tag value s).watches
        posting := (runSetPosition c tag value s).posting } := by
  obtain ⟨hchan, hothers, _⟩ := runSetPosition_runsOn c tag value s
  obtain ⟨hrearmed, hframe⟩ := rearmCooling_rearmed c value
    (s.setChan c { s.chan c with pgn := { (s.chan c).pgn with position := value } })
  have hran : runSetPosition c tag value s = { s with
      chans := (s.setChan c { s.chan c with pgn := { (s.chan c).pgn with position := value } }).chans
      watches := (runSetPosition c tag value s).watches
      posting := s.posting ++ [s.done .main ReqKind.setPosition.code tag .ok .clear (chanByte c) value (s.position c) 0] } := by
    have hpos : (rearmCooling c value (s.setChan c { s.chan c with
        pgn := { (s.chan c).pgn with position := value } })).position c = value := by
      rw [hframe]
      exact s.position_setChan_self c _
    simp only [runSetPosition, State.modChan, State.entryDone, hpos]
    rw [hframe]
    rfl
  exact ⟨hchan, hothers, hrearmed, by rw [hran], by rw [hran]⟩

theorem runHead_setPosition (c : Chan) (tag value : Word) (rest : List Entry) (s : State) :
    runHead c (.setPosition tag value :: rest) s = runHead c rest (runSetPosition c tag value s) := rfl

theorem runHead_mark (c : Chan) (tag : Word) (set clear : Mask) (rest : List Entry) (s : State) :
    runHead c (.mark tag set clear :: rest) s = runHead c rest { s with
      aux := (s.aux ||| set) &&& ~~~clear
      posting := s.posting ++ [s.done .main ReqKind.mark.code tag .ok .clear (chanByte c) (s.position c)
        (auxMask ((s.aux ||| set) &&& ~~~clear)) 0] } := rfl

/-- A MOVE of zero distance takes no time (R13, first step). -/
theorem runHead_zeroMove {c : Chan} {m : MoveEntry} {rest : List Entry} {s : State}
    (h : (resolveMove m (s.position c).toInt).steps = 0) :
    runHead c (.move m :: rest) s = runHead c rest { s with
      posting := s.posting ++ [s.done .main ReqKind.move.code m.tag .ok .clear (chanByte c) (s.position c) 0 0] } := by
  rw [runHead, if_pos h]
  rfl

theorem runHead_move {c : Chan} {m : MoveEntry} {rest : List Entry} {s : State}
    (h : (resolveMove m (s.position c).toInt).steps ≠ 0) :
    runHead c (.move m :: rest) s = startMove c m (resolveMove m (s.position c).toInt) rest s := by
  rw [runHead, if_neg h]

/-- A MOVE that fails a start check holds the channel: the entries behind it leave, and it completes (R14). -/
theorem failStart_eq (c : Chan) (m : MoveEntry) (status : Status) (behind : List Entry) (s : State) :
    failStart c m status behind s
      = ({ s.setChan c ((s.chan c).emptied .held) with
          posting := s.posting ++ behind.filterMap (cancelled? (s.setChan c ((s.chan c).emptied .held)) c)
            ++ [s.done .main ReqKind.move.code m.tag status .clear (chanByte c) (s.position c) 0 0] },
        behind.filterMap (withdrawn? c)) := by
  have hpos : (s.setChan c ((s.chan c).emptied .held)).position c = s.position c := s.position_setChan_self c _
  rw [failStart, State.modChan, flushBehind_eq]
  simp only [State.entryDone]
  rw [← hpos]
  rfl

/-- The two start checks (R13, second and third step). -/
theorem startMove_fails {c : Chan} {m : MoveEntry} {r : Resolved} {behind : List Entry} {s : State} {status : Status}
    (h : (softLimitOk (s.chan c).cfg r.endPos = false ∧ status = .range)
      ∨ (softLimitOk (s.chan c).cfg r.endPos = true ∧ limitBlocks (s.chan c) r.positive = true ∧ status = .limit)) :
    startMove c m r behind s = failStart c m status behind s := by
  rcases h with ⟨hs, rfl⟩ | ⟨hs, hl, rfl⟩
  · simp [startMove, hs]
  · simp [startMove, hs, hl]

section Begins
variable {c : Chan} {m : MoveEntry} {r : Resolved} {behind : List Entry} {s : State}
  (hsoft : softLimitOk (s.chan c).cfg r.endPos = true) (hlimit : limitBlocks (s.chan c) r.positive = false)
include hsoft hlimit

/-- A MOVE that calls for the other DIR level starts with SETTLE (R13, R34). -/
theorem startMove_settles (hdir : (s.chan c).pgn.dirHigh ≠ dirLevelFor (s.chan c).cfg.dirPolarity r.positive) :
    startMove c m r behind s = (s.setChan c { (s.chan c).begun m r behind with
      pgn := { ((s.chan c).begun m r behind).pgn with
        phase := .settle, settleEnd := some (s.now + 40 * (s.chan c).cfg.dirSettle) } }, []) := by
  simp only [startMove, hsoft, hlimit, Bool.not_true, Bool.false_eq_true, if_false, beginMove, if_neg hdir, usCycles_eq]
  rfl

/-- A MOVE with DIR already right starts with its first step (R13, R35). -/
theorem startMove_steps (hdir : (s.chan c).pgn.dirHigh = dirLevelFor (s.chan c).cfg.dirPolarity r.positive) :
    startMove c m r behind s = firstStep c (m.profile.vs ^ 2) (s.setChan c ((s.chan c).begun m r behind)) := by
  simp only [startMove, hsoft, hlimit, Bool.not_true, Bool.false_eq_true, if_false, beginMove, if_pos hdir]
  rfl

end Begins

/-- An entry admitted to an IDLE channel becomes its head at once (R5). -/
theorem appendEntry_idle {c : Chan} {s : State} (hshaped : (s.chan c).shaped = true) (h : (s.chan c).state = .idle)
    (e : Entry) : appendEntry c e s = runHead c [e] s := by
  have hempty : (s.chan c).queue = [] := by
    unfold Channel.shaped at hshaped
    rw [h] at hshaped
    split at hshaped <;> simp_all
  simp only [appendEntry, h, if_true, hempty, List.nil_append]

end Sys2Proof.Machine
end

section
/-! The queued kinds taken on an IDLE channel (O22, O23, O24, O25). -/

namespace Sys2Proof.Machine

section Idle
variable {s : State} {k : ReqKind} {r : Block} {e : Entry}

/-- The owner's part of a queued kind that an IDLE channel admits: its entry runs from the head (R5, R9). -/
theorem admitEntry_idle (hshaped : s.queuesShaped) (hrec : recEntry? k s r = some e)
    (hst : (s.chan (recChan r)).state = .idle) :
    admitEntry k r (consume .main s) = (runHead (recChan r) [e] (consume .main s)).settle := by
  rw [admitEntry_open (by rwa [recEntry?_consume]) (by rw [chan_consume]; simp [Channel.isOpen, hst]),
    appendEntry_idle (by rw [chan_consume]; exact hshaped _) (by rwa [chan_consume])]

/-- A pending HALT waits for no IDLE channel (R60). -/
theorem haltsSettled_of_idle {t : State} {c : Chan} (hs : s.haltsSettled) (hst : (s.chan c).state = .idle)
    (hh : t.halts = s.halts) (ho : ∀ d, d ≠ c → t.chan d = s.chan d) : t.haltsSettled :=
  haltsSettled_of_chan hs hh ho fun h => by simp [Channel.comingToRest, hst] at h

/-- The take of an entry that an IDLE channel admits and that leaves a given state. -/
theorem answers_idle {u : State} (ht : Taken s .main k r) (hk : k ∈ [ReqKind.move, .dwell, .setPosition, .mark])
    (hs : s.haltsSettled) (hshaped : s.queuesShaped) (hrec : recEntry? k s r = some e)
    (hst : (s.chan (recChan r)).state = .idle) (hu : (runHead (recChan r) [e] (consume .main s)).settle = u)
    (hh : u.halts = s.halts) (ho : ∀ d, d ≠ recChan r → u.chan d = s.chan d) {p : State → Prop}
    (hp : ∀ stall irq messages, p { u with stall := stall, irq := irq, messages := messages }) :
    Answers (exec (takeCommand .main (some k)) s) p := by
  rw [exec_takeQueued hk]
  exact answers_owner ht ((admitEntry_idle hshaped hrec hst).trans hu) (haltsSettled_of_idle hs hst hh ho) hp

end Idle

/-- Settles O22: the start checks pass and DIR changes, so the MOVE begins with SETTLE. -/
theorem moveFromIdleSettles : Obligations.MoveFromIdleSettles := by
  intro s r m ht hs hshaped hrec c ch x hst hne hsoft hlimit hdir
  let started : Channel := { ch.begun m x [] with
    pgn := { (ch.begun m x []).pgn with phase := .settle, settleEnd := some (s.now + 40 * ch.cfg.dirSettle) } }
  have hrun : (runHead c [.move m] (consume .main s)).settle = (consume .main s).setChan c started := by
    rw [runHead_move (by rwa [position_consume]), startMove_settles (by rwa [chan_consume, position_consume])
      (by rwa [chan_consume, position_consume]) (by rwa [chan_consume, position_consume]), settle_quiet]
    simp only [chan_consume, position_consume, now_consume]
    rfl
  have hself : ((consume .main s).setChan c started).chan c = started := State.chan_setChan_self _ _ _
  have hothers (d : Chan) (hd : d ≠ c) : ((consume .main s).setChan c started).chan d = s.chan d :=
    (State.chan_setChan_of_ne _ hd _).trans (chan_consume s .main d)
  refine answers_idle (k := .move) ht (by decide) hs hshaped hrec hst hrun rfl hothers fun stall irq messages => ?_
  have hchan : State.chan { (consume .main s).setChan c started with stall := stall, irq := irq, messages := messages } c
      = started := hself
  exact ⟨congrArg Channel.state hchan, congrArg Channel.queue hchan, congrArg Channel.resolved hchan,
    congrArg Channel.binding hchan, congrArg (·.pgn.phase) hchan, congrArg (·.pgn.settleEnd) hchan,
    congrArg (·.pgn.dirHigh) hchan, congrArg (·.pgn.remaining) hchan, congrArg (·.pgn.emitted) hchan,
    congrArg (·.pgn.schedule) hchan, congrArg (·.pgn.position) hchan, congrArg (·.pgn.pulseEnd) hchan,
    (congrArg Channel.cfg hchan).trans rfl, hothers, consume_tookFrom s .main, rfl⟩

/-! ### The first step from IDLE (R13, R31 to R35, R45) -/

/-- The positive direction is the one that its DIR level stands for (R34). -/
theorem dirPositive_dirLevelFor (pol : DirPolarity) (positive : Bool) :
    dirPositive pol (dirLevelFor pol positive) = positive := by
  cases pol
  · rfl
  · exact Bool.not_not positive

/-- A step due now is emitted as the command of its channel (R31). -/
theorem exec_stepEmission_due {s : State} {c : Chan} {x : Sched} (h : s.inReset = false)
    (hst : (s.chan c).state = .running ∨ (s.chan c).state = .stopping) (hx : (s.chan c).pgn.schedule = some x)
    (hdue : x.due ≤ s.now) : exec (.stepEmission c) s = .next (finish (emitStep c x.rateSq s).settle) := by
  have hexec : exec (.stepEmission c) s = _ := outcome_due h (reached_dueStep.mpr ⟨hst, x, hx, hdue⟩) (takeStepDue c)
  rw [hexec, takeStepDue, hx]

/-- A first step emitted at once is the emission of a step scheduled for this instant (R35). -/
theorem exec_stepEmission_started {s : State} {c : Chan} {z : Channel} {rateSq : Nat} (h : s.inReset = false)
    (hst : z.state = .running) :
    exec (.stepEmission c)
        (s.setChan c { z with pgn := { z.pgn with schedule := some { due := s.now, rateSq := rateSq } } })
      = .next (finish (emitStep c rateSq (s.setChan c z)).settle) := by
  let z' : Channel := { z with pgn := { z.pgn with schedule := some { due := s.now, rateSq := rateSq } } }
  have hchan : (s.setChan c z').chan c = z' := s.chan_setChan_self c z'
  have hexec := exec_stepEmission_due (s := s.setChan c z') (x := { due := s.now, rateSq := rateSq }) h
    (by rw [hchan]; exact .inl hst) (by rw [hchan]) le_rfl
  rwa [emitStep_scheduled] at hexec

/-- The take of an entry that an IDLE channel admits, as a run of its head. -/
theorem exec_takeIdle {s : State} {k : ReqKind} {r : Block} {e : Entry} (ht : Taken s .main k r)
    (hk : k ∈ [ReqKind.move, .dwell, .setPosition, .mark]) (hshaped : s.queuesShaped) (hrec : recEntry? k s r = some e)
    (hst : (s.chan (recChan r)).state = .idle) :
    exec (takeCommand .main (some k)) s = .next (finish (runHead (recChan r) [e] (consume .main s)).settle) := by
  rw [exec_takeQueued hk, outcome_awake ht.awake, takeKind_taken ht, admitEntry_idle hshaped hrec hst]

/-- Settles O23: the MOVE begins with its first step, which is scheduled for the end of the hold, or emitted at once as the
step of a schedule due now. -/
theorem moveFromIdleSteps : Obligations.MoveFromIdleSteps := by
  intro s r m ht hs hshaped hrec c ch x next vsSq hst hne hsoft hlimit hdir zero started
  have hbegun : ch.begun m x [] = { ch with
      state := .running, queue := [.move m], resolved := some x
      binding := if m.exitRate.isSome then .pending else .notChained
      watchHalt := false
      pgn := { ch.pgn with
        rateSq := 0, phase := .none, remaining := x.steps, emitted := 0, schedule := none, stopMode := .none,
        settleEnd := none, lastEnd := none } } := by
    simp only [Channel.begun, ← hdir]
    rfl
  have hzero : boundaryZero (ch.begun m x []) vsSq = zero := by rw [hbegun]
  have hrun : runHead c [.move m] (consume .main s)
      = firstStep c vsSq ((consume .main s).setChan c (ch.begun m x [])) := by
    rw [runHead_move (by rwa [position_consume]), startMove_steps (by rwa [chan_consume, position_consume])
      (by rwa [chan_consume, position_consume]) (by rwa [chan_consume, position_consume])]
    simp only [chan_consume, position_consume]
    rfl
  have hhold : holdUntil (((consume .main s).setChan c (ch.begun m x [])).chan c) = holdUntil ch := by
    rw [State.chan_setChan_self]
    rfl
  have hothers (z : Channel) (d : Chan) (hd : d ≠ c) : ((consume .main s).setChan c z).chan d = s.chan d :=
    (State.chan_setChan_of_ne _ hd _).trans (chan_consume s .main d)
  have hnow (h : holdUntil ch ≤ s.now) :
      runHead c [.move m] (consume .main s) = emitStep c vsSq ((consume .main s).setChan c zero) := by
    rw [hrun, firstStep_now (by rw [hhold]; exact h), State.chan_setChan_self, State.setChan_setChan, hzero]
  have hrunning : zero.state = .running := by
    show (boundaryZero _ vsSq).state = _
    rw [boundaryZero_frame]
  refine ⟨fun h => ?_, fun h => ⟨(consume .main s).setChan c (started s.now), ?_, State.chan_setChan_self _ _ _,
    hothers _, consume_tookFrom s .main, rfl⟩, fun h hquiet => ?_⟩
  · have hheld : (runHead c [.move m] (consume .main s)).settle = (consume .main s).setChan c (started (holdUntil ch)) := by
      rw [hrun, firstStep_held (by rw [hhold]; exact h), State.chan_setChan_self, State.setChan_setChan, settle_quiet, hzero]
      rfl
    refine answers_idle (k := .move) ht (by decide) hs hshaped hrec hst hheld rfl (hothers _) fun stall irq messages => ?_
    exact ⟨State.chan_setChan_self _ _ _, hothers _, consume_tookFrom s .main, rfl⟩
  · have htake : exec (.move .main) s = _ := exec_takeIdle (k := .move) ht (by decide) hshaped hrec hst
    rw [htake, hnow h]
    exact (exec_stepEmission_started (s := consume .main s) ht.awake hrunning).symm
  · have hbegunFacts : (ch.begun m x []).positive = x.positive ∧ (ch.begun m x []).nextPosition = next := by
      have hpositive : (ch.begun m x []).positive = x.positive := dirPositive_dirLevelFor _ _
      exact ⟨hpositive, by rw [Channel.nextPosition, hpositive]; rfl⟩
    obtain ⟨hpositive, hnext⟩ := hbegunFacts
    have hfirst := firstStep_quiet (c := c) (z := ch.begun m x []) (entrySq := vsSq) (v := consume .main s)
      (by rw [now_consume]; exact h) (by rw [hnext, hpositive]; exact hquiet)
    rw [← hrun] at hfirst
    generalize hu : (runHead c [.move m] (consume .main s)).settle = u at hfirst
    have hposting := hfirst.posting
    have hrearmed := hfirst.rearmed
    have hkept := hfirst.kept
    rw [hnext] at hposting hrearmed
    rw [hzero] at hkept
    have hfrom (d : Chan) (hd : d ≠ c) : u.chan d = s.chan d := (hfirst.others d hd).trans (chan_consume s .main d)
    refine answers_idle (k := .move) ht (by decide) hs hshaped hrec hst hu (by rw [hfirst.frame]; rfl) hfrom
      fun stall irq messages => ?_
    exact ⟨hfirst.position.trans hnext, hfirst.pulse, hfirst.rate, hfirst.emitted, hfirst.remaining,
      hfirst.dir.trans hdir.symm, hrearmed, hkept, hposting, hfrom,
      tookFrom_of_rings (by rw [hfirst.frame]) (by rw [hfirst.frame]), by rw [hfirst.frame]; rfl⟩

/-! ### The entries that leave an IDLE channel at rest (R13, R14, R16 to R18) -/

/-- Settles O24: a MOVE of zero distance leaves the queue empty, and a failed start check holds the channel with nothing behind
it. -/
theorem moveFromIdleFailsOrIsEmpty : Obligations.MoveFromIdleFailsOrIsEmpty := by
  intro s r m ht hs hshaped hrec c ch x endsIn hst
  have ends (status : Status) (state : ChanState)
      (hrun : (runHead c [.move m] (consume .main s)).settle = { (consume .main s).setChan c (ch.emptied state) with
        posting := s.posting ++ [s.done .main ReqKind.move.code m.tag status .clear (chanByte c) (s.position c) 0 0] }) :
      endsIn status state := by
    have hothers (d : Chan) (hd : d ≠ c) : ((consume .main s).setChan c (ch.emptied state)).chan d = s.chan d :=
      (State.chan_setChan_of_ne _ hd _).trans (chan_consume s .main d)
    refine answers_idle (k := .move) ht (by decide) hs hshaped hrec hst hrun rfl hothers fun stall irq messages => ?_
    exact ⟨State.chan_setChan_self _ _ _, rfl, hothers, consume_tookFrom s .main, rfl⟩
  have fails (status : Status) (hne : x.steps ≠ 0)
      (hfail : (softLimitOk ch.cfg x.endPos = false ∧ status = .range)
        ∨ (softLimitOk ch.cfg x.endPos = true ∧ limitBlocks ch x.positive = true ∧ status = .limit)) :
      endsIn status .held := by
    refine ends status .held ?_
    rw [runHead_move (by rwa [position_consume]), startMove_fails (by rwa [chan_consume, position_consume]), failStart_eq]
    simp only [List.filterMap_nil, List.append_nil, settle_quiet, chan_consume, position_consume, done_consume]
    rfl
  refine ⟨fun hzero => ends .ok .idle ?_, fun hne hsoft => fails .range hne (.inl ⟨hsoft, rfl⟩),
    fun hne hsoft hlimit => fails .limit hne (.inr ⟨hsoft, hlimit, rfl⟩)⟩
  rw [runHead_zeroMove (by rwa [position_consume]), runHead_nil, settle_quiet]
  simp only [position_consume, done_consume]
  rfl

/-- DWELL on an IDLE channel starts its timer (R16). -/
theorem answers_dwellFromIdle {s : State} {r : Block} (ht : Taken s .main .dwell r) (hs : s.haltsSettled)
    (hshaped : s.queuesShaped) (hst : (s.chan (recChan r)).state = .idle) (hne : blockField r 8 3 ≠ 0) :
    Answers (exec (.dwell .main) s) fun t =>
      t.chan (recChan r) = { (s.chan (recChan r)).emptied .dwelling with
        queue := [.dwell (recTag r) (blockField r 8 3)], dwellStart := some s.now }
      ∧ (∀ d, d ≠ recChan r → t.chan d = s.chan d) ∧ TookFrom s t .main
      ∧ t = { s with
          chans := t.chans, mainRing := t.mainRing, ctrlRing := t.ctrlRing, stall := t.stall, irq := t.irq,
          messages := t.messages } := by
  have hrec : recEntry? .dwell s r = some (.dwell (recTag r) (blockField r 8 3)) := if_neg hne
  have hrun : (runHead (recChan r) [.dwell (recTag r) (blockField r 8 3)] (consume .main s)).settle
      = (consume .main s).setChan (recChan r) { (s.chan (recChan r)).emptied .dwelling with
        queue := [.dwell (recTag r) (blockField r 8 3)], dwellStart := some s.now } := by
    rw [runHead_dwell, settle_quiet, chan_consume, now_consume]
  have hothers (x : Channel) (d : Chan) (hd : d ≠ recChan r) : ((consume .main s).setChan (recChan r) x).chan d = s.chan d :=
    (State.chan_setChan_of_ne _ hd _).trans (chan_consume s .main d)
  refine answers_idle (k := .dwell) ht (by decide) hs hshaped hrec hst hrun rfl (hothers _) fun stall irq messages => ?_
  exact ⟨State.chan_setChan_self _ _ _, hothers _, consume_tookFrom s .main, rfl⟩

/-- SET_POSITION on an IDLE channel loads the position and tests the COOLING watches (R17, R102). -/
theorem answers_setPositionFromIdle {s : State} {r : Block} (ht : Taken s .main .setPosition r) (hs : s.haltsSettled)
    (hshaped : s.queuesShaped) (hst : (s.chan (recChan r)).state = .idle) :
    Answers (exec (.setPosition .main) s) fun t =>
      t.chan (recChan r)
        = { (s.chan (recChan r)).emptied .idle with pgn := { (s.chan (recChan r)).pgn with position := blockWord r 8 } }
      ∧ Rearmed s t (recChan r) (blockWord r 8)
      ∧ t.posting = s.posting ++ [s.done .main ReqKind.setPosition.code (recTag r) .ok .clear (chanByte (recChan r))
          (blockWord r 8) (s.position (recChan r)) 0]
      ∧ (∀ d, d ≠ recChan r → t.chan d = s.chan d) ∧ TookFrom s t .main
      ∧ t = { s with
          chans := t.chans, watches := t.watches, posting := t.posting, mainRing := t.mainRing,
          ctrlRing := t.ctrlRing, stall := t.stall, irq := t.irq, messages := t.messages } := by
  obtain ⟨hchan, hsame, hrearmed, hposting, hframe⟩ :=
    runSetPosition_spec (recChan r) (recTag r) (blockWord r 8) (consume .main s)
  generalize hu : runSetPosition (recChan r) (recTag r) (blockWord r 8) (consume .main s) = u at *
  have hrun : (runHead (recChan r) [.setPosition (recTag r) (blockWord r 8)] (consume .main s)).settle
      = u.setChan (recChan r) ((u.chan (recChan r)).emptied .idle) := by
    rw [runHead_setPosition, runHead_nil, settle_quiet, hu]
  rw [hchan, chan_consume] at hrun
  rw [position_consume, done_consume] at hposting
  have hothers (x : Channel) (d : Chan) (hd : d ≠ recChan r) : (u.setChan (recChan r) x).chan d = s.chan d :=
    ((State.chan_setChan_of_ne _ hd _).trans (hsame d hd)).trans (chan_consume s .main d)
  refine answers_idle (k := .setPosition) ht (by decide) hs hshaped rfl hst hrun (by rw [hframe]; rfl) (hothers _)
    fun stall irq messages => ?_
  refine ⟨State.chan_setChan_self _ _ _, hrearmed, hposting, hothers _, tookFrom_of_rings ?_ ?_, ?_⟩ <;> rw [hframe] <;> rfl

/-- MARK on an IDLE channel writes the AUX latch (R18). -/
theorem answers_markFromIdle {s : State} {r : Block} (ht : Taken s .main .mark r) (hs : s.haltsSettled)
    (hshaped : s.queuesShaped) (hst : (s.chan (recChan r)).state = .idle) (hmasks : recMask r 8 &&& recMask r 9 = 0) :
    Answers (exec (.mark .main) s) fun t =>
      t.aux = (s.aux ||| recMask r 8) &&& ~~~(recMask r 9)
      ∧ t.chan (recChan r) = (s.chan (recChan r)).emptied .idle
      ∧ t.posting = s.posting ++ [s.done .main ReqKind.mark.code (recTag r) .ok .clear (chanByte (recChan r))
          (s.position (recChan r)) (auxMask t.aux) 0]
      ∧ (∀ d, d ≠ recChan r → t.chan d = s.chan d) ∧ TookFrom s t .main
      ∧ t = { s with
          chans := t.chans, aux := t.aux, posting := t.posting, mainRing := t.mainRing, ctrlRing := t.ctrlRing,
          stall := t.stall, irq := t.irq, messages := t.messages } := by
  have hrec : recEntry? .mark s r = some (.mark (recTag r) (recMask r 8) (recMask r 9)) := if_pos hmasks
  have hrun : (runHead (recChan r) [.mark (recTag r) (recMask r 8) (recMask r 9)] (consume .main s)).settle
      = { (consume .main s).setChan (recChan r) ((s.chan (recChan r)).emptied .idle) with
        aux := (s.aux ||| recMask r 8) &&& ~~~(recMask r 9)
        posting := s.posting ++ [s.done .main ReqKind.mark.code (recTag r) .ok .clear (chanByte (recChan r))
          (s.position (recChan r)) (auxMask ((s.aux ||| recMask r 8) &&& ~~~(recMask r 9))) 0] } := by
    rw [runHead_mark, runHead_nil, settle_quiet]
    simp only [position_consume, done_consume]
    rfl
  have hothers (x : Channel) (d : Chan) (hd : d ≠ recChan r) : ((consume .main s).setChan (recChan r) x).chan d = s.chan d :=
    (State.chan_setChan_of_ne _ hd _).trans (chan_consume s .main d)
  refine answers_idle (k := .mark) ht (by decide) hs hshaped hrec hst hrun rfl (hothers _) fun stall irq messages => ?_
  exact ⟨rfl, State.chan_setChan_self _ _ _, rfl, hothers _, consume_tookFrom s .main, rfl⟩

/-- A MOVE with steps to emit that passes its start checks is RUNNING at the head (R13). -/
theorem startMove_running {c : Chan} {m : MoveEntry} {r : Resolved} {behind : List Entry} {s : State}
    (hsoft : softLimitOk (s.chan c).cfg r.endPos = true) (hlimit : limitBlocks (s.chan c) r.positive = false) :
    ((startMove c m r behind s).1.chan c).state = .running
      ∧ ((startMove c m r behind s).1.chan c).queue = .move m :: behind
      ∧ ((startMove c m r behind s).1.chan c).resolved = some r := by
  rw [(startMove_runsOn c m r behind s).chan]
  unfold Channel.afterStart
  rw [if_neg (by simp [hsoft, hlimit])]
  split
  · rw [afterFirst_frame]
    exact ⟨rfl, rfl, rfl⟩
  · exact ⟨rfl, rfl, rfl⟩

/-- Settles O25: the three takes, and one equation for each entry at the head. -/
theorem otherEntriesFromIdle : Obligations.OtherEntriesFromIdle := by
  refine ⟨fun s r hs hshaped hst => ⟨fun ht hne => answers_dwellFromIdle ht hs hshaped hst hne,
    fun ht => answers_setPositionFromIdle ht hs hshaped hst, fun ht hm => answers_markFromIdle ht hs hshaped hst hm⟩,
    fun s c rest => ⟨rfl, fun tag value => ⟨_, rfl, runSetPosition_spec c tag value s⟩, fun tag set clear => rfl,
      fun tag duration => rfl, fun i => rfl, fun m => ?_⟩⟩
  intro x a t
  refine ⟨fun hzero => runHead_zeroMove hzero, fun hne hsoft hlimit => ?_, fun status hne hfail => ?_⟩
  · have ha : a = startMove c m x rest s := runHead_move hne
    show ((a.1).chan c).state = _ ∧ ((a.1).chan c).queue = _ ∧ ((a.1).chan c).resolved = _
    rw [ha]
    exact startMove_running hsoft hlimit
  · have ha : a = failStart c m status rest s := (runHead_move hne).trans (startMove_fails hfail)
    rw [failStart_eq] at ha
    have hflush (e : Entry) : cancelled? t c e = cancelled? (s.setChan c ((s.chan c).emptied .held)) c e := by
      show cancelled? a.1 c e = _
      rw [ha]
      exact cancelled_congr rfl rfl rfl rfl e
    refine ⟨?_, congrArg Prod.snd ha⟩
    rw [funext hflush]
    exact congrArg Prod.fst ha

end Sys2Proof.Machine
end

section
/-! The boundaries of a segment: the binding decision, the next step under the rate law and under the stopping law, and the
emission of a scheduled step (O49, O50). -/

namespace Sys2Proof.Machine

/-! ### The binding decision at a boundary (R37, R39) -/

section BindingAt
variable {ch : Channel} {m : MoveEntry} {uSq left : Nat}

theorem bindingAt_decided (h : ch.binding ≠ .pending) : bindingAt ch m uSq left = ch.binding := by
  unfold bindingAt
  split
  · exact absurd (by assumption) h
  · rfl

theorem bindingAt_pending {r : Resolved} (h : ch.binding = .pending) (hr : ch.resolved = some r) :
    bindingAt ch m uSq left
      = if left = 1 ∨ left - 1 < stepsDown uSq (m.profile.vs ^ 2) m.profile.b then decideBinding ch m r else .pending := by
  simp only [bindingAt, h, hr, mayContinue, Bool.or_eq_true, Bool.not_eq_true', decide_eq_false_iff_not, Nat.not_le,
    beq_iff_eq, or_comm]

end BindingAt

theorem mayContinue_iff {uSq vtSq b left : Nat} : mayContinue uSq vtSq b left = true ↔ stepsDown uSq vtSq b ≤ left - 1 :=
  decide_eq_true_iff

/-! ### The emission of a step (R31, R36 to R39, R43, R44) -/

section Emission
variable {ch : Channel} {m : MoveEntry} {now rateSq : Nat}

/-- After the last step its period runs out (R31). -/
theorem afterEmit_last (h : ch.pgn.remaining - 1 = 0) :
    ch.afterEmit now rateSq = { stepEdge ch now rateSq with
      pgn := { (stepEdge ch now rateSq).pgn with lastEnd := some (now + stepPeriod rateSq) } } := if_pos h

/-- Under the stopping law the boundary is that of R44. -/
theorem afterEmit_stopping (h : ch.pgn.remaining - 1 ≠ 0) (hm : ch.headMove? = some m) (hd : ch.pgn.stopMode = .decel) :
    ch.afterEmit now rateSq = boundaryStop (stepEdge ch now rateSq) m now := by
  have hm' : (stepEdge ch now rateSq).headMove? = some m := hm
  refine (if_neg h).trans ?_
  rw [hm']
  exact if_pos hd

/-- Otherwise it is that of the rate law (R36 to R39). -/
theorem afterEmit_rated (h : ch.pgn.remaining - 1 ≠ 0) (hm : ch.headMove? = some m) (hd : ch.pgn.stopMode ≠ .decel) :
    ch.afterEmit now rateSq = boundaryRate (stepEdge ch now rateSq) m now := by
  have hm' : (stepEdge ch now rateSq).headMove? = some m := hm
  refine (if_neg h).trans ?_
  rw [hm']
  exact if_neg hd

end Emission

/-- A boundary under the rate law where the phase is not FINAL (R36 to R39). -/
theorem boundaryRate_candidate {ch : Channel} {m : MoveEntry} {now : Nat} (h : ch.pgn.phase ≠ .final) :
    let uSq := candidateSq ch.pgn.rateSq (m.profile.vc ^ 2) m.profile.a m.profile.b
    let binding := bindingAt ch m uSq ch.pgn.remaining
    let vtSq := exitTarget binding m ^ 2
    (stepsDown uSq vtSq m.profile.b ≤ ch.pgn.remaining - 1 → boundaryRate ch m now = { ch with
        binding := binding
        pgn := { ch.pgn.scheduleFrom now uSq with phase := phaseOf uSq (m.profile.vc ^ 2), lastVtSq := vtSq } })
      ∧ (ch.pgn.remaining - 1 < stepsDown uSq vtSq m.profile.b → boundaryRate ch m now = { ch with
        binding := binding
        pgn := { ch.pgn.scheduleFrom now (fallSq ch.pgn.rateSq vtSq m.profile.b) with phase := .final, lastVtSq := vtSq } }) :=
  ⟨fun hle => (if_neg h).trans (if_pos (mayContinue_iff.mpr hle)),
    fun hlt => (if_neg h).trans (if_neg fun hc => absurd (mayContinue_iff.mp hc) (Nat.not_le.mpr hlt))⟩

/-- What the emission of a step leaves of the channel, in the words of the statements (R32, R33). -/
theorem afterEmit_kept (ch : Channel) (now rateSq : Nat) :
    ch.afterEmit now rateSq = { ch with
      binding := (ch.afterEmit now rateSq).binding
      pgn := { ch.pgn with
        position := if ch.positive then ch.pgn.position + 1 else ch.pgn.position - 1
        rateSq := rateSq, pulseEnd := some (now + 40 * ch.cfg.pulseWidth), emitted := ch.pgn.emitted + 1
        remaining := ch.pgn.remaining - 1, stopHold := none, lastStepAt := now
        schedule := (ch.afterEmit now rateSq).pgn.schedule, lastEnd := (ch.afterEmit now rateSq).pgn.lastEnd
        phase := (ch.afterEmit now rateSq).pgn.phase, lastVtSq := (ch.afterEmit now rateSq).pgn.lastVtSq } } := by
  refine (afterEmit_frame ch now rateSq).trans ?_
  simp only [stepEdge, usCycles_eq]

/-- The emission of a step does what the statements' `Stepped` says: the counts, then the boundary by its law. -/
theorem stepped_afterEmit {ch : Channel} {m : MoveEntry} (x : Sched) (now : Nat) (hm : ch.headMove? = some m) :
    Stepped ch m x now (ch.afterEmit now x.rateSq) := by
  refine ⟨afterEmit_kept ch now x.rateSq, ?_⟩
  by_cases hleft : ch.pgn.remaining - 1 = 0
  · have hch := afterEmit_last (ch := ch) (now := now) (rateSq := x.rateSq) hleft
    have hno : ¬1 ≤ ch.pgn.remaining - 1 := by omega
    rw [hch]
    exact ⟨fun _ => ⟨rfl, rfl, rfl, rfl⟩, fun _ => rfl, fun _ => rfl, fun h => absurd h hno, fun h => absurd h hno,
      fun h => absurd h hno⟩
  refine ⟨fun h => absurd h hleft, ?_⟩
  by_cases hstop : ch.pgn.stopMode = .decel
  · have hch := afterEmit_stopping (now := now) (rateSq := x.rateSq) hleft hm hstop
    have hrate : (stepEdge ch now x.rateSq).pgn.rateSq = x.rateSq := rfl
    rw [hch]
    by_cases hslow : x.rateSq ≤ m.profile.vs ^ 2
    · have hb : boundaryStop (stepEdge ch now x.rateSq) m now = _ := if_pos hslow
      rw [hb]
      exact ⟨fun _ => rfl, fun _ => rfl, fun _ h => absurd hstop h, fun _ h => absurd hstop h,
        fun _ _ => ⟨⟨rfl, rfl⟩, fun h => absurd hslow (Nat.not_le.mpr h), fun _ => ⟨rfl, rfl, rfl, rfl⟩⟩⟩
    · have hb : boundaryStop (stepEdge ch now x.rateSq) m now = _ := if_neg hslow
      rw [hb]
      exact ⟨fun _ => rfl, fun _ => rfl, fun _ h => absurd hstop h, fun _ h => absurd hstop h,
        fun _ _ => ⟨⟨rfl, rfl⟩, fun _ => ⟨rfl, rfl⟩, fun h => absurd h hslow⟩⟩
  · have hch := afterEmit_rated (now := now) (rateSq := x.rateSq) hleft hm hstop
    rw [hch]
    by_cases hfinal : ch.pgn.phase = .final
    · have hb : boundaryRate (stepEdge ch now x.rateSq) m now = _ := if_pos hfinal
      rw [hb]
      exact ⟨fun _ => rfl, fun _ => rfl, fun _ _ h => absurd hfinal h,
        fun _ _ => ⟨rfl, fun _ => ⟨⟨rfl, rfl⟩, hfinal⟩, fun h => absurd hfinal h, fun h => absurd hfinal h⟩,
        fun _ h => absurd h hstop⟩
    · obtain ⟨hcontinues, hfalls⟩ := boundaryRate_candidate (ch := stepEdge ch now x.rateSq) (m := m) (now := now) hfinal
      have hdecided := bindingAt_decided (ch := stepEdge ch now x.rateSq) (m := m) (left := ch.pgn.remaining - 1)
        (uSq := candidateSq x.rateSq (m.profile.vc ^ 2) m.profile.a m.profile.b)
      have hpending (r : Resolved) := bindingAt_pending (ch := stepEdge ch now x.rateSq) (m := m) (r := r)
        (left := ch.pgn.remaining - 1) (uSq := candidateSq x.rateSq (m.profile.vc ^ 2) m.profile.a m.profile.b)
      have hdecision (hp : ch.binding = .pending) (r : Resolved) (hr : ch.resolved = some r) :=
        And.intro
          (fun (h1 : ch.pgn.remaining - 1 ≠ 1) (h2 : stepsDown (candidateSq x.rateSq (m.profile.vc ^ 2) m.profile.a
              m.profile.b) (m.profile.vs ^ 2) m.profile.b ≤ ch.pgn.remaining - 1 - 1) =>
            (hpending r hp hr).trans (if_neg (not_or.mpr ⟨h1, Nat.not_lt.mpr h2⟩)))
          (fun h => (hpending r hp hr).trans (if_pos h))
      by_cases hle : stepsDown (candidateSq x.rateSq (m.profile.vc ^ 2) m.profile.a m.profile.b)
          (exitTarget (bindingAt (stepEdge ch now x.rateSq) m
            (candidateSq x.rateSq (m.profile.vc ^ 2) m.profile.a m.profile.b) (ch.pgn.remaining - 1)) m ^ 2) m.profile.b
          ≤ ch.pgn.remaining - 1 - 1
      · rw [hcontinues hle]
        exact ⟨hdecided, fun h => h.elim (absurd · hleft) fun h => h.elim (absurd · hstop) (absurd · hfinal),
          fun _ _ _ hp r hr => hdecision hp r hr,
          fun _ _ => ⟨rfl, fun h => absurd h hfinal, fun _ _ => ⟨⟨rfl, rfl⟩, rfl⟩, fun _ h => absurd hle (Nat.not_le.mpr h)⟩,
          fun _ h => absurd h hstop⟩
      · rw [hfalls (Nat.not_le.mp hle)]
        exact ⟨hdecided, fun h => h.elim (absurd · hleft) fun h => h.elim (absurd · hstop) (absurd · hfinal),
          fun _ _ _ hp r hr => hdecision hp r hr,
          fun _ _ => ⟨rfl, fun h => absurd h hfinal, fun _ h => absurd h hle, fun _ _ => ⟨⟨rfl, rfl⟩, rfl⟩⟩,
          fun _ h => absurd h hstop⟩

/-! ### STEP_EMISSION (R31, R33) -/

/-- What a command answers that leaves a given state with the pending HALTs settled. -/
theorem answers_state {s u : State} {f : State → State} (h : s.inReset = false) (hf : f s = u) (hu : u.haltsSettled)
    {p : State → Prop} (hp : ∀ stall irq messages, p { u with stall := stall, irq := irq, messages := messages }) :
    Answers (outcome s f) p := by
  subst hf
  exact answers_settled h f p hu hp

/-- A channel that emits a step and is coming to rest is still coming to rest (R60). -/
theorem haltsSettled_emitted {s v : State} {c : Chan} {rateSq : Nat} (hs : s.haltsSettled) (hh : v.halts = s.halts)
    (ho : ∀ d, d ≠ c → v.chan d = s.chan d) (hc : (v.chan c).state = (s.chan c).state) :
    (v.emitted c rateSq).haltsSettled := by
  obtain ⟨hchan, hsame, _, _, hframe⟩ := emitted_spec v c rateSq
  refine haltsSettled_of_chan (c := c) hs (by rw [hframe]; exact hh) (fun d hd => (hsame d hd).trans (ho d hd)) fun h => ?_
  obtain ⟨_, _, hpulse, _, _, _, _, _, hkeep⟩ := afterEmit_spec (v.chan c) v.now rateSq
  have hstate : ((v.chan c).afterEmit v.now rateSq).state = (s.chan c).state := by
    rw [hkeep]
    exact hc
  rw [hchan, Channel.comingToRest, hstate, hpulse]
  simp only [Channel.comingToRest, Bool.or_eq_true, Bool.and_eq_true] at h
  rcases h with h | ⟨h, _⟩ <;> simp [h]

/-- Settles O49: a step due now is emitted, and where it fires no watch it does what `Stepped` says. -/
theorem stepEmissionAndNextRate : Obligations.StepEmissionAndNextRate := by
  refine ⟨fun s c h hs => ?_, fun r c now position => ⟨fun _ => rfl, fun hne => if_neg hne, fun hshows hst hk => ?_,
    fun hshows hno => ?_⟩⟩
  · intro ch next moving
    refine ⟨fun hearly => answers_early h hs _ fun hr => ?_, fun x m hmoving hx hdue hm _ hquiet => ?_⟩
    · obtain ⟨hmoving, x, hx, hle⟩ := reached_dueStep.mp hr
      exact absurd (hearly hmoving x hx) (Nat.not_lt.mpr hle)
    · have hemits : atDue (dueStep ch) (takeStepDue c) s = s.emitted c x.rateSq := by
        rw [atDue_reached (reached_dueStep.mpr ⟨hmoving, x, hx, hdue⟩), takeStepDue, hx]
        exact settle_emitStep hquiet
      obtain ⟨hchan, hsame, hrearmed, hposting, hframe⟩ := emitted_spec s c x.rateSq
      refine answers_state h hemits (haltsSettled_emitted hs rfl (fun _ _ => rfl) rfl) fun stall irq messages => ?_
      generalize s.emitted c x.rateSq = u at *
      refine ⟨?_, hrearmed, hposting, hsame, by rw [hframe]⟩
      show Stepped ch m x s.now (u.chan c)
      rw [hchan]
      exact stepped_afterEmit x s.now hm
  · rw [Cpl.atStep, if_pos hshows, if_pos ⟨hst, hk⟩]
  · have hno' : ¬(r.status = .cancelled ∧ r.kind = ReqKind.setPosition.code) := hno
    rw [Cpl.atStep, if_pos hshows, if_neg hno']

/-! ### SETTLE_END (R34, R35) -/

/-- Boundary 0 of a segment (R35, R37, R39). -/
theorem boundaryZero_eq {ch : Channel} {m : MoveEntry} {uSq : Nat} (hm : ch.headMove? = some m) :
    boundaryZero ch uSq =
      let binding := bindingAt ch m uSq ch.pgn.remaining
      let vtSq := exitTarget binding m ^ 2
      { ch with
        binding := binding
        pgn := { ch.pgn with
          phase := if stepsDown uSq vtSq m.profile.b ≤ ch.pgn.remaining - 1 then phaseOf uSq (m.profile.vc ^ 2) else .final
          lastVtSq := vtSq } } := by
  simp only [boundaryZero, hm, mayContinue, decide_eq_true_eq]

theorem phaseOf_ne_settle (uSq vcSq : Nat) : phaseOf uSq vcSq ≠ .settle := by
  unfold phaseOf
  split
  · decide
  · split <;> decide

/-- No boundary leads to SETTLE (R35 to R38). -/
theorem phase_boundaryZero {ch : Channel} {m : MoveEntry} (hm : ch.headMove? = some m) (uSq : Nat) :
    (boundaryZero ch uSq).pgn.phase ≠ .settle := by
  rw [boundaryZero_eq hm]
  simp only
  split
  · exact phaseOf_ne_settle _ _
  · decide

theorem phase_afterEmit {ch : Channel} (now rateSq : Nat) (h : ch.pgn.phase ≠ .settle) :
    (ch.afterEmit now rateSq).pgn.phase ≠ .settle := by
  have hedge : (stepEdge ch now rateSq).pgn.phase ≠ .settle := h
  unfold Channel.afterEmit afterStep
  split
  · exact hedge
  · split
    · exact hedge
    · split
      · unfold boundaryStop
        simp only
        split <;> exact hedge
      · unfold boundaryRate
        simp only
        split
        · exact hedge
        · split
          · exact phaseOf_ne_settle _ _
          · exact (by decide : Phase.final ≠ .settle)

/-- The exit target in force is the bound one, or the head's own Vs (R20). -/
theorem exitTarget_unbound {ch : Channel} (m : MoveEntry) (h : ch.headBound = false) :
    exitTarget ch.binding m = m.profile.vs := by
  cases hb : ch.binding <;> simp_all [exitTarget, Channel.headBound]

/-- Settles O50: at its instant SETTLE ends with the first step, as a scheduled step due then would be emitted. -/
theorem settleEndEmitsTheFirstStep : Obligations.SettleEndEmitsTheFirstStep := by
  refine ⟨fun s c h hs => ?_, fun ch m uSq hm => ?_⟩
  · intro ch next settling
    refine ⟨fun hearly => answers_early h hs _ fun hr => ?_, fun e m hsettling he hdue hm => ?_⟩
    · obtain ⟨hst, hph, e, he, hle⟩ := reached_dueSettle.mp hr
      exact absurd (hearly ⟨hst, hph⟩ e he) (Nat.not_lt.mpr hle)
    intro vsSq zero started
    let ch0 : Channel := { ch with pgn := { ch.pgn with settleEnd := none } }
    have hchan0 : (s.setChan c ch0).chan c = ch0 := s.chan_setChan_self c ch0
    have hdone : reached s.now (dueSettle ch) = true := reached_dueSettle.mpr ⟨hsettling.1, hsettling.2, e, he, hdue⟩
    have hf : atDue (dueSettle ch) (takeSettleEnd c) s = (firstStep c vsSq (s.setChan c ch0)).settle := by
      rw [atDue_reached hdone]
      simp only [takeSettleEnd]
      rw [show (s.chan c).headMove? = some m from hm]
      rfl
    have hothers (z : Channel) (d : Chan) (hd : d ≠ c) : (s.setChan c z).chan d = s.chan d := State.chan_setChan_of_ne s hd z
    have hzero : zero = { ch with
        binding := zero.binding, pgn := { ch.pgn with settleEnd := none, phase := zero.pgn.phase, lastVtSq := zero.pgn.lastVtSq } } :=
      boundaryZero_frame ch0 vsSq
    have hrunning : zero.state = .running := by
      rw [hzero]
      exact hsettling.1
    have hnow (hle : holdUntil ch ≤ s.now) : firstStep c vsSq (s.setChan c ch0) = emitStep c vsSq (s.setChan c zero) := by
      rw [firstStep_now (by rw [hchan0]; exact hle), hchan0, State.setChan_setChan]
    refine ⟨fun hlt => ?_, fun hle => ?_, fun hle hquiet => ?_⟩
    · have hheld : atDue (dueSettle ch) (takeSettleEnd c) s = s.setChan c (started (holdUntil ch)) := by
        rw [hf, firstStep_held (by rw [hchan0]; exact hlt), hchan0, State.setChan_setChan, settle_quiet]
        rfl
      refine answers_state h hheld ?_ fun stall irq messages => ⟨State.chan_setChan_self _ _ _, hothers _, rfl⟩
      refine haltsSettled_of_chan (c := c) hs rfl (hothers _) fun hc => ?_
      simp [Channel.comingToRest, show (s.chan c).state = .running from hsettling.1] at hc
    · have hexec : exec (.settleEnd c) s = _ := outcome_due h hdone (takeSettleEnd c)
      rw [hexec, exec_stepEmission_started h hrunning, ← hnow hle, ← hf, atDue_reached hdone]
    · have hfirst := firstStep_quiet (c := c) (z := ch0) (entrySq := vsSq) (v := s) hle hquiet
      have hphase : (zero.afterEmit s.now vsSq).pgn.phase ≠ .settle :=
        phase_afterEmit s.now vsSq (phase_boundaryZero (ch := ch0) hm vsSq)
      have hsettled := hfirst.haltsSettled hs rfl (fun _ _ => rfl)
        (by simp [Channel.comingToRest, show (s.chan c).state = .running from hsettling.1])
      generalize (firstStep c vsSq (s.setChan c ch0)).settle = u at hf hfirst hsettled
      refine answers_state h hf hsettled fun stall irq messages => ?_
      refine ⟨hfirst.position, hfirst.rate, hfirst.pulse, hfirst.emitted, hfirst.remaining, hfirst.settleEnd, ?_,
        hfirst.rearmed, ?_, hfirst.posting, hfirst.others, by rw [hfirst.frame]⟩
      · show (u.chan c).pgn.phase ≠ .settle
        rw [hfirst.chan]
        exact hphase
      · refine hfirst.kept.trans ?_
        rw [boundaryZero_frame]
        rfl
  · intro z left b vcSq vtSq
    have hz := boundaryZero_eq (uSq := uSq) hm
    have hbinding : z.binding = bindingAt ch m uSq left := congrArg Channel.binding hz
    have hphase : z.pgn.phase = if stepsDown uSq vtSq b ≤ left - 1 then phaseOf uSq vcSq else .final := by
      have := congrArg (·.pgn.phase) hz
      rw [← hbinding] at this
      exact this
    refine ⟨?_, fun hne => hbinding.trans (bindingAt_decided hne), fun hp r hr => ⟨fun h1 h2 => ?_, fun hd => ?_⟩,
      fun hle => hphase.trans (if_pos hle), fun hlt => hphase.trans (if_neg (Nat.not_le.mpr hlt)),
      fun vt minimum place x hb => by rw [hb]; rfl, fun hb => exitTarget_unbound m hb⟩
    · have hvt : z.pgn.lastVtSq = vtSq := by
        have := congrArg (·.pgn.lastVtSq) hz
        rw [← hbinding] at this
        exact this
      rw [← hvt]
      exact boundaryZero_frame ch uSq
    · rw [hbinding, bindingAt_pending hp hr]
      exact if_neg (not_or.mpr ⟨h1, Nat.not_lt.mpr h2⟩)
    · rw [hbinding, bindingAt_pending hp hr]
      exact if_pos hd

end Sys2Proof.Machine
end

section
/-! The end of a pulse and rest under the stopping law, with the HALTs that they complete (O51, O53). -/

namespace Sys2Proof.Machine

/-! ### The HALTs that wait for one channel (R60) -/

theorem hasChan_stillWaiting (c d : Chan) (h : PendingHalt) :
    hasChan (stillWaiting c h) d = (hasChan h.waiting d && !(d == c)) := by
  rw [← hasChan_chanBit]
  simp [stillWaiting, hasChan, d.isLt]

/-- Once channel c alone has come to rest, the pending HALTs no longer wait for it (R60). -/
theorem stillMoving_afterRest {s u : State} {c : Chan} (hs : s.haltsSettled) (ho : ∀ d, d ≠ c → u.chan d = s.chan d)
    (hc : restedHalted (u.chan c) = true) {h : PendingHalt} (hh : h ∈ s.halts) :
    stillMoving u h.waiting = stillWaiting c h := by
  refine mask_ext fun d => ?_
  rw [hasChan_stillMoving, hasChan_stillWaiting]
  by_cases hd : d = c
  · subst hd
    simp [hc]
  · have hne : (d == c) = false := by simpa using hd
    rw [ho d hd, hne]
    cases hw : hasChan h.waiting d with
    | false => rfl
    | true => simp [restedHalted_of_comingToRest ((hs h hh).2 d hw)]

/-- The pending-halt list once channel c alone has come to rest (R60). -/
theorem halts_afterRest {s u : State} {c : Chan} (hs : s.haltsSettled) (hh : u.halts = s.halts) (hk : u.clock = s.clock)
    (ho : ∀ d, d ≠ c → u.chan d = s.chan d) (hc : restedHalted (u.chan c) = true) :
    haltsLeft u u = haltsAfterRest s c ∧ haltsDone u u = haltsDoneAtRest s c := by
  have hm : ∀ h ∈ s.halts, stillMoving u h.waiting = stillWaiting c h := fun h => stillMoving_afterRest hs ho hc
  constructor
  · have gen : ∀ l : List PendingHalt, (∀ h ∈ l, stillMoving u h.waiting = stillWaiting c h) →
        ((l.filter fun h => stillMoving u h.waiting != 0).map fun h => { h with waiting := stillMoving u h.waiting })
          = l.filterMap fun h => if stillWaiting c h = 0 then none else some { h with waiting := stillWaiting c h } := by
      intro l
      induction l with
      | nil => exact fun _ => rfl
      | cons h rest ih =>
        intro hl
        have hrest := ih fun x hx => hl x (List.mem_cons_of_mem _ hx)
        have hhead := hl h List.mem_cons_self
        by_cases hz : stillWaiting c h = 0
        · rw [List.filter_cons_of_neg (by simp [hhead, hz]), List.filterMap_cons, if_pos hz, hrest]
        · rw [List.filter_cons_of_pos (by rw [hhead]; simpa using hz), List.filterMap_cons, if_neg hz, List.map_cons, hrest, hhead]
    unfold haltsLeft
    rw [hh]
    exact gen s.halts hm
  · unfold haltsDone haltsDoneAtRest
    rw [hh, List.filter_congr fun h hh => by rw [hm h hh]]
    simp only [State.done, hk]

/-- What a command answers that brings channel c alone to rest (R60). -/
theorem answers_rest {s u : State} {c : Chan} {f : State → State} (h : s.inReset = false) (hs : s.haltsSettled)
    (hf : f s = u) (hh : u.halts = s.halts) (hk : u.clock = s.clock) (ho : ∀ d, d ≠ c → u.chan d = s.chan d)
    (hc : restedHalted (u.chan c) = true) {p : State → Prop}
    (hp : ∀ stall irq messages, p { u with
      halts := haltsAfterRest s c, posting := u.posting ++ haltsDoneAtRest s c, stall := stall, irq := irq
      messages := messages }) : Answers (outcome s f) p := by
  subst hf
  obtain ⟨hleft, hdone⟩ := halts_afterRest hs hh hk ho hc
  refine answers_effect h fun stall irq messages => ?_
  rw [hleft, hdone]
  exact hp _ _ _

/-! ### PULSE_END (R32, R45, R56) -/

/-- The completion kept back while STEP was high, as it is handed over (R56). -/
def keptRecords (s : State) (c : Chan) : List Cpl :=
  (s.chan c).kept.toList.map fun k =>
    s.done .main ReqKind.move.code k.tag k.status k.flags (chanByte c) (s.position c) k.steps k.rate

theorem fall_spec (p : Pgn) (now : Nat) :
    p.fall now = if p.stopMode = .abrupt then { p with
        pulseEnd := none, fell := some now, rateSq := 0, phase := .none, remaining := 0, emitted := 0, schedule := none
        stopMode := .none, settleEnd := none, lastEnd := none, stopHold := some now }
      else { p with pulseEnd := none, fell := some now } := by
  unfold Pgn.fall
  split <;> rfl

theorem position_fall (p : Pgn) (now : Nat) : (p.fall now).position = p.position := by
  rw [fall_spec]
  split <;> rfl

theorem pulseEnd_fall (p : Pgn) (now : Nat) : (p.fall now).pulseEnd = none := by
  rw [fall_spec]
  split <;> rfl

/-- STEP falls, and what was kept back is handed over (R32, R56). -/
theorem takePulseEnd_eq (c : Chan) (s : State) :
    takePulseEnd c s = { s.setChan c { s.chan c with kept := none, pgn := (s.chan c).pgn.fall s.now } with
      posting := s.posting ++ keptRecords s c } := by
  have hpos : (s.setChan c { s.chan c with kept := none, pgn := (s.chan c).pgn.fall s.now }).position c = s.position c :=
    (s.position_setChan_self c _).trans (position_fall _ _)
  cases hk : (s.chan c).kept with
  | none => simp [takePulseEnd, keptRecords, hk, State.setChan]
  | some k =>
    simp only [takePulseEnd, keptRecords, hk, postKept, State.entryDone, hpos]
    rfl

/-- Settles O51: the fall of STEP brings a HELD channel to rest, which the HALTs that wait for it see. -/
theorem pulseEndBringsRest : Obligations.PulseEndBringsRest := by
  intro s c h hs ch
  refine ⟨fun hearly => answers_early h hs _ fun hr => ?_, ?_⟩
  · obtain ⟨e, he, hle⟩ := reached_iff.mp hr
    exact absurd (hearly e he) (Nat.not_lt.mpr hle)
  intro e he hdue low rested handed
  let fallen : Channel := { ch with kept := none, pgn := ch.pgn.fall s.now }
  have hfallen : fallen = { ch with kept := none, pgn := if ch.pgn.stopMode = .abrupt then rested else low } := by
    simp only [fallen, fall_spec]
    rfl
  have hf : atDue (duePulse ch) (takePulseEnd c) s = { s.setChan c fallen with posting := s.posting ++ handed } := by
    exact (atDue_reached (reached_iff.mpr ⟨e, he, hdue⟩) _).trans (takePulseEnd_eq c s)
  have hself : (s.setChan c fallen).chan c = fallen := s.chan_setChan_self c fallen
  have hothers (d : Chan) (hd : d ≠ c) : (s.setChan c fallen).chan d = s.chan d := State.chan_setChan_of_ne s hd fallen
  by_cases hst : ch.state = .held
  · have hrest : restedHalted ((s.setChan c fallen).chan c) = true := by
      rw [hself]
      simp [restedHalted, Channel.atRest, fallen, hst, pulseEnd_fall]
    refine answers_rest (c := c) h hs hf rfl rfl hothers hrest fun stall irq messages => ?_
    exact ⟨hself.trans hfallen, hothers, fun _ => ⟨rfl, rfl⟩, fun hne => absurd hst hne, rfl⟩
  · refine answers_state h hf ?_ fun stall irq messages => ?_
    · refine haltsSettled_of_chan (c := c) hs rfl hothers fun hc => ?_
      have hstopping : ch.state = .stopping := by
        simpa [Channel.comingToRest, show (s.chan c).state ≠ .held from hst] using hc
      refine (congrArg Channel.comingToRest hself).trans ?_
      simp [Channel.comingToRest, fallen, hstopping]
    · exact ⟨hself.trans hfallen, hothers, fun hheld => absurd hheld hst, fun _ => ⟨rfl, rfl⟩, rfl⟩

/-! ### Rest under the stopping law (R44, R55, R57) -/

/-- A STOPPING channel comes to rest (R44, R55). -/
theorem stopAtRest_eq {c : Chan} {s : State} {m : MoveEntry} (hm : (s.chan c).headMove? = some m) :
    stopAtRest c s = { s.setChan c { (s.chan c).emptied .held with pgn := (s.chan c).pgn.atRest } with
      posting := s.posting ++ [s.done .main ReqKind.move.code m.tag
        (if (s.chan c).pgn.remaining = 0 then .ok else .halted) (haltFlags (s.chan c) m) (chanByte c) (s.position c)
        (auxNat (s.chan c).pgn.emitted) (auxNat (s.chan c).pgn.lastRate)] } := by
  have hpos : (s.setChan c { (s.chan c).emptied .held with pgn := (s.chan c).pgn.atRest }).position c = s.position c :=
    s.position_setChan_self c _
  simp only [stopAtRest, hm, postKept, State.entryDone]
  rw [← hpos]
  rfl

/-- Settles O53: either command brings the STOPPING channel to HELD, at rest unless its pulse is still high. -/
theorem stopRestHoldsTheChannel : Obligations.StopRestHoldsTheChannel := by
  intro s c h hs ch
  refine ⟨fun hearly => answers_early h hs _ fun hr => ?_, ?_⟩
  · obtain ⟨hst, hleft, e, he, hle⟩ := reached_dueStopRest.mp hr
    exact absurd (hearly hst hleft e he) (Nat.not_lt.mpr hle)
  intro e m hst hm he hdue flags rests
  let rested : Channel := { ch.emptied .held with pgn := ch.pgn.atRest }
  have hself : (s.setChan c rested).chan c = rested := s.chan_setChan_self c rested
  have hothers (d : Chan) (hd : d ≠ c) : (s.setChan c rested).chan d = s.chan d := State.chan_setChan_of_ne s hd rested
  have answers (status : Status) (hstatus : (if ch.pgn.remaining = 0 then Status.ok else .halted) = status)
      (f : State → State) (hf : f s = stopAtRest c s) : Answers (outcome s f) (rests status) := by
    rw [stopAtRest_eq hm] at hf
    rw [show (if (s.chan c).pgn.remaining = 0 then Status.ok else .halted) = status from hstatus] at hf
    cases hpulse : ch.pgn.pulseEnd with
    | none =>
      have hrest : restedHalted ((s.setChan c rested).chan c) = true := by
        rw [hself]
        simp [restedHalted, Channel.atRest, rested, Channel.emptied, Pgn.atRest, hpulse]
      refine answers_rest (c := c) h hs hf rfl rfl hothers hrest fun stall irq messages => ?_
      refine ⟨hself, fun _ => ⟨rfl, ?_⟩, fun hne => absurd hpulse hne, hothers, rfl⟩
      exact List.append_assoc _ _ _
    | some fall =>
      refine answers_state h hf ?_ fun stall irq messages => ?_
      · refine haltsSettled_of_chan (c := c) hs rfl hothers fun _ => ?_
        refine (congrArg Channel.comingToRest hself).trans ?_
        simp [Channel.comingToRest, rested, Channel.emptied, Pgn.atRest, hpulse]
      · exact ⟨hself, fun hnone => absurd (hpulse.symm.trans hnone) nofun, fun _ => ⟨rfl, rfl⟩, hothers, rfl⟩
  refine ⟨fun hleft => answers .halted (if_neg hleft) _ ?_, fun hleft => answers .ok (if_pos hleft) _ ?_⟩
  · exact atDue_reached (reached_dueStopRest.mpr ⟨hst, hleft, e, he, hdue⟩) _
  · rw [atDue_reached (reached_dueSegmentEnd.mpr ⟨.inr hst, hleft, e, he, hdue⟩)]
    simp only [takeSegmentEnd]
    rw [show (s.chan c).state = .stopping from hst]

end Sys2Proof.Machine
end

section
/-! The end of a segment: a head without a successor comes to rest at its last step's period, and a bound head hands over to the
MOVE behind it (O52). -/

namespace Sys2Proof.Machine

/-! ### The limit changes of the instant (R66, R69) -/

/-- One limit input after the changes of an instant (R66). -/
theorem limit_takeLimit (ch : Channel) (now : Nat) (input other : LimitInput) :
    (ch.takeLimit now input).limit other
      = if other = input ∧ ch.limitCompletes input now = true then (ch.limit other).change else ch.limit other := by
  unfold Channel.takeLimit
  by_cases hc : ch.limitCompletes input now = true
  · by_cases ho : other = input
    · subst ho
      cases other <;> simp [hc, Channel.limit, Channel.setLimit]
    · rw [if_pos hc, limit_setLimit_ne ch ho, if_neg fun h => ho h.1]
  · rw [if_neg hc, if_neg fun h => hc h.2]

theorem limit_takeLimits (ch : Channel) (now : Nat) (input : LimitInput) :
    (ch.takeLimits now).limit input
      = if ch.limitCompletes input now = true then (ch.limit input).change else ch.limit input := by
  have hcompletes : (ch.takeLimit now .limp).limitCompletes .limn now = ch.limitCompletes .limn now := by
    unfold Channel.takeLimit
    split <;> rfl
  rw [Channel.takeLimits, limit_takeLimit, limit_takeLimit, hcompletes]
  cases input <;> simp

/-! ### The records of a segment end (R15, R24) -/

/-- The record of a head MOVE that ends its segment. -/
def segmentRecord (s : State) (c : Chan) (m : MoveEntry) : Cpl :=
  s.entryDone c .move m.tag .ok (endFlags (s.chan c) m) (auxNat (s.chan c).pgn.emitted) (auxNat (s.chan c).pgn.lastRate)

theorem postSegment_eq (c : Chan) (m : MoveEntry) (s : State) : postSegment c m s = s.post (segmentRecord s c m) := rfl

theorem markRecords_congr {s t : State} {c : Chan} (hp : s.position c = t.position c) (hk : s.clock = t.clock)
    (l : List Entry) (aux : Mask) : markRecords s c l aux = markRecords t c l aux := by
  induction l generalizing aux with
  | nil => rfl
  | cons e rest ih => cases e <;> simp only [markRecords, ih, State.done, hp, hk]

/-- The MARKs behind a bound head change the AUX latch and append their completions (R24). -/
theorem runMarks_eq (c : Chan) (marks : List Entry) (s : State) :
    runMarks c marks s = { s with aux := marksAux marks s.aux, posting := s.posting ++ markRecords s c marks s.aux } := by
  induction marks generalizing s with
  | nil => simp [runMarks, marksAux, markRecords]
  | cons e rest ih =>
    cases e with
    | mark tag set clear =>
      have hstep : runMarks c (.mark tag set clear :: rest) s = runMarks c rest (runMark c tag set clear s) := rfl
      have haux : (runMark c tag set clear s).aux = (s.aux ||| set) &&& ~~~clear := rfl
      rw [hstep, ih, markRecords_congr (s := runMark c tag set clear s) (t := s) rfl rfl, haux]
      simp only [marksAux, markRecords]
      rw [List.append_cons]
      rfl
    | move m => exact ih s
    | dwell tag d => exact ih s
    | setPosition tag v => exact ih s
    | marker i => exact ih s

/-! ### A head without a successor (R15, R69) -/

theorem endSegment_unbound {c : Chan} {m : MoveEntry} {s : State} (h : (s.chan c).headBound = false) :
    endSegment c m s = runHead c (s.chan c).queue.tail
      ((s.setChan c { s.chan c with pgn := (s.chan c).pgn.atRest }).post (segmentRecord s c m)) := by
  have hrest : (postSegment c m s).modChan c (fun ch => { ch with pgn := ch.pgn.atRest })
      = (s.setChan c { s.chan c with pgn := (s.chan c).pgn.atRest }).post (segmentRecord s c m) := rfl
  rw [← hrest]
  unfold endSegment
  cases hb : (s.chan c).binding <;> simp_all [Channel.headBound]

/-- An unbound head's channel as it comes to rest, with the limit changes of the instant taken (R69). -/
def Channel.ended (ch : Channel) (now : Nat) : Channel :=
  { ch with limp := (ch.takeLimits now).limp, limn := (ch.takeLimits now).limn, pgn := ch.pgn.atRest }

/-- The segment end of an unbound head at its instant. -/
theorem takeSegmentEnd_unbound {c : Chan} {m : MoveEntry} {rest : List Entry} {s : State} (hst : (s.chan c).state = .running)
    (hq : (s.chan c).queue = .move m :: rest) (hb : (s.chan c).headBound = false) :
    takeSegmentEnd c s
      = (runHead c rest ((s.setChan c ((s.chan c).ended s.now)).post (segmentRecord s c m))).settle := by
  have hm : (s.chan c).headMove? = some m := by simp [Channel.headMove?, hq]
  let v : State := s.setChan c ((s.chan c).takeLimits s.now)
  have hlimits : limitsAtRest c s = v := if_neg (by simp [hb])
  have hframe := takeLimits_frame (s.chan c) s.now
  have hself : v.chan c = (s.chan c).takeLimits s.now := s.chan_setChan_self c _
  have hbound : (v.chan c).headBound = false := by
    rw [hself, hframe]
    exact hb
  have htail : (v.chan c).queue.tail = rest := by
    rw [hself, hframe]
    simp [hq]
  have hrecord : segmentRecord v c m = segmentRecord s c m := by
    simp only [segmentRecord, State.entryDone, State.position, hself]
    rw [hframe]
    rfl
  have hended : v.setChan c { v.chan c with pgn := (v.chan c).pgn.atRest } = s.setChan c ((s.chan c).ended s.now) := by
    rw [State.setChan_setChan, hself, hframe]
    rfl
  simp only [takeSegmentEnd, hst, hm, hlimits]
  rw [endSegment_unbound hbound, htail, hrecord, hended]

/-! ### A bound head (R24) -/

theorem endSegment_bound {c : Chan} {m n : MoveEntry} {s : State} {vt minimum : Nat} {x : Resolved} {marks behind : List Entry}
    (hb : (s.chan c).binding = .bound vt minimum (marks.length + 1) x)
    (hq : (s.chan c).queue = .move m :: (marks ++ .move n :: behind)) :
    endSegment c m s = takeUpSuccessor c n x behind (runMarks c marks (s.post (segmentRecord s c m))) := by
  unfold endSegment
  simp [hb, hq, postSegment_eq]

/-- The segment end of a bound head at its instant: its successor begins with its first step. -/
theorem takeSegmentEnd_bound {c : Chan} {m n : MoveEntry} {s : State} {vt minimum : Nat} {x : Resolved}
    {marks behind : List Entry} (hst : (s.chan c).state = .running)
    (hb : (s.chan c).binding = .bound vt minimum (marks.length + 1) x)
    (hq : (s.chan c).queue = .move m :: (marks ++ .move n :: behind)) :
    takeSegmentEnd c s = (firstStep c (max (s.chan c).pgn.rateSq (n.profile.vs ^ 2))
      (State.setChan { s with
        aux := marksAux marks s.aux, posting := s.posting ++ segmentRecord s c m :: markRecords s c marks s.aux }
        c ((s.chan c).takenUp n x behind))).settle := by
  have hm : (s.chan c).headMove? = some m := by simp [Channel.headMove?, hq]
  have hlimits : limitsAtRest c s = s := if_pos (by simp [Channel.headBound, hb])
  simp only [takeSegmentEnd, hst, hm, hlimits]
  have hmarks : runMarks c marks (s.post (segmentRecord s c m)) = { s with
      aux := marksAux marks s.aux, posting := s.posting ++ segmentRecord s c m :: markRecords s c marks s.aux } := by
    rw [runMarks_eq, markRecords_congr (s := s.post _) (t := s) rfl rfl, List.append_cons]
    rfl
  rw [endSegment_bound hb hq, hmarks]
  rfl

/-- Settles O52: the head completes at the end of its last step's period; without a successor the entries behind it run from
rest, with one its first step follows at once. -/
theorem segmentEndCompletesTheHead : Obligations.SegmentEndCompletesTheHead := by
  intro s c h hs ch moving
  refine ⟨fun hearly => answers_early h hs _ fun hr => ?_, ?_⟩
  · obtain ⟨hmoving, hleft, e, he, hle⟩ := reached_dueSegmentEnd.mp hr
    exact absurd (hearly hmoving hleft e he) (Nat.not_lt.mpr hle)
  intro e m rest hst hleft he hdue hq flags record taken
  have hdone : reached s.now (dueSegmentEnd ch) = true := reached_dueSegmentEnd.mpr ⟨.inl hst, hleft, e, he, hdue⟩
  have hexec : exec (.segmentEnd c) s = .next (finish (takeSegmentEnd c s)) := outcome_due h hdone (takeSegmentEnd c)
  have hcalm : ch.comingToRest = false := by simp [Channel.comingToRest, hst]
  have hnotcoming (u : State) (hh : u.halts = s.halts) (ho : ∀ d, d ≠ c → u.chan d = s.chan d) : u.haltsSettled :=
    haltsSettled_of_chan hs hh ho fun hc => absurd hc (by simp [show (s.chan c).comingToRest = false from hcalm])
  have hothers (z : Channel) (d : Chan) (hd : d ≠ c) : (s.setChan c z).chan d = s.chan d := State.chan_setChan_of_ne s hd z
  refine ⟨fun input => ?_, ?_, ?_⟩
  · refine (limit_takeLimits ch s.now input).trans ?_
    rw [Channel.limitCompletes, limitTarget_eq]
    rfl
  · intro hb ended
    have hends := takeSegmentEnd_unbound hst hq hb
    refine ⟨by rw [hexec, hends]; rfl, fun hnil => ?_⟩
    subst hnil
    have hf : atDue (dueSegmentEnd ch) (takeSegmentEnd c) s
        = { s.setChan c (ended.emptied .idle) with posting := s.posting ++ [record] } := by
      rw [atDue_reached hdone, hends, runHead_nil, settle_quiet]
      show ((s.setChan c ended).setChan c (((s.setChan c ended).chan c).emptied .idle)).post record = _
      rw [State.setChan_setChan, State.chan_setChan_self]
      rfl
    exact answers_state h hf (hnotcoming _ rfl (hothers _)) fun _ _ _ =>
      ⟨s.chan_setChan_self c _, rfl, hothers _, rfl⟩
  · intro vt minimum x marks n behind hb hrest hmarks next entrySq zero started aux posting
    subst hrest
    let v : State := { s with aux := aux, posting := posting }
    let z : Channel := ch.takenUp n x behind
    have hends : takeSegmentEnd c s = (firstStep c entrySq (v.setChan c z)).settle := takeSegmentEnd_bound hst hb hq
    have hzero : zero = boundaryZero z entrySq := rfl
    have hself : (v.setChan c z).chan c = z := v.chan_setChan_self c z
    have hhold : holdUntil z = holdUntil ch := rfl
    have hrunning : zero.state = .running := by
      rw [hzero, boundaryZero_frame]
      exact hst
    refine ⟨fun hle => ?_, fun hlt => ?_, fun hle hquiet => ?_⟩
    · have hsteps := exec_stepEmission_started (s := v) (c := c) (rateSq := entrySq) h hrunning
      rw [hexec, hends, firstStep_now (by rw [hself]; exact hle), hself, State.setChan_setChan]
      exact hsteps.symm
    · have hf : atDue (dueSegmentEnd ch) (takeSegmentEnd c) s = v.setChan c (started (holdUntil ch)) := by
        rw [atDue_reached hdone, hends, firstStep_held (by rw [hself]; exact hlt), hself, State.setChan_setChan, settle_quiet]
        rfl
      exact answers_state h hf (hnotcoming _ rfl fun d hd => State.chan_setChan_of_ne v hd _) fun _ _ _ =>
        ⟨v.chan_setChan_self c _, fun d hd => State.chan_setChan_of_ne v hd _, rfl⟩
    · have hfirst := firstStep_quiet (c := c) (z := z) (entrySq := entrySq) (v := v) hle hquiet
      have hf : atDue (dueSegmentEnd ch) (takeSegmentEnd c) s = _ := (atDue_reached hdone _).trans hends
      generalize (firstStep c entrySq (v.setChan c z)).settle = u at hf hfirst
      refine answers_state h hf (hfirst.haltsSettled hs rfl (fun _ _ => rfl) hcalm) fun stall irq messages => ?_
      have hu : u = { s with
          chans := u.chans, watches := u.watches, aux := aux, posting := posting.map fun r => r.atStep c s.now next } :=
        hfirst.frame.trans (by rw [hfirst.posting]; rfl)
      exact ⟨hfirst.position, hfirst.rate, hfirst.pulse, hfirst.emitted, hfirst.remaining, hfirst.dir,
        hfirst.rearmed, hfirst.kept, hfirst.others, by rw [hu]⟩

end Sys2Proof.Machine
end

section
/-! The watch unit: which watches a step or a qualified edge fires, and what a watch that fires does (O45, O46). -/

namespace Sys2Proof.Machine

/-! ### The watches that meet a test (R98 to R100) -/

theorem evaluatesWatches_iff {p : PartState} : p.evaluatesWatches = true ↔ p = .running ∨ p = .draining := by
  cases p <;> simp [PartState.evaluatesWatches]

theorem sense_agrees_iff {sense : Sense} {positive : Bool} : sense.agrees positive = true ↔
    sense = .either ∨ (sense = .up ∧ positive = true) ∨ (sense = .down ∧ positive = false) := by
  cases sense <;> simp [Sense.agrees]

theorem edge_agrees_iff {edge : Edge} {rise : Bool} : edge.agrees rise = true ↔
    edge = .both ∨ (edge = .rise ∧ rise = true) ∨ (edge = .fall ∧ rise = false) := by
  cases edge <;> simp [Edge.agrees]

theorem firesOnStep_iff {w : Watch} {c : Chan} {position : Word} {positive : Bool} :
    firesOnStep w c position positive = true ↔ ∃ sense rearm, w.state = .armed ∧ w.channel = c
      ∧ w.cond = .position position sense rearm
      ∧ (sense = .either ∨ (sense = .up ∧ positive = true) ∨ (sense = .down ∧ positive = false)) := by
  cases hc : w.cond with
  | edge input edge rearm => simp [firesOnStep, hc]
  | position p sense rearm =>
    simp only [firesOnStep, hc, Bool.and_eq_true, beq_iff_eq, sense_agrees_iff, WatchCond.position.injEq]
    constructor
    · rintro ⟨⟨⟨hst, hch⟩, hp⟩, hs⟩
      exact ⟨sense, rearm, hst, hch, ⟨hp, rfl, rfl⟩, hs⟩
    · rintro ⟨_, _, hst, hch, ⟨hp, rfl, rfl⟩, hs⟩
      exact ⟨⟨⟨hst, hch⟩, hp⟩, hs⟩

theorem firesOnEdge_iff {w : Watch} {input : CapIx} {rise : Bool} :
    firesOnEdge w input rise = true ↔ w.state = .armed ∧ ∃ edge rearm, w.cond = .edge input edge rearm
      ∧ (edge = .both ∨ (edge = .rise ∧ rise = true) ∨ (edge = .fall ∧ rise = false)) := by
  cases hc : w.cond with
  | position p sense rearm => simp [firesOnEdge, hc]
  | edge i edge rearm =>
    simp only [firesOnEdge, hc, Bool.and_eq_true, beq_iff_eq, edge_agrees_iff, WatchCond.edge.injEq]
    constructor
    · rintro ⟨⟨hst, hi⟩, he⟩
      exact ⟨hst, edge, rearm, ⟨hi, rfl, rfl⟩, he⟩
    · rintro ⟨hst, _, _, ⟨hi, rfl, rfl⟩, he⟩
      exact ⟨⟨hst, hi⟩, he⟩

theorem rearms_iff {w : Watch} {c : Chan} {position : Word} :
    rearms w c position = true ↔ w.state = .cooling ∧ w.channel = c
      ∧ ∃ p sense h, w.cond = .position p sense (some h) ∧ h ≤ (position.toInt - p.toInt).natAbs := by
  cases hc : w.cond with
  | edge input edge rearm => simp [rearms, hc]
  | position p sense rearm =>
    cases rearm with
    | none => simp [rearms, hc]
    | some h =>
      simp only [rearms, hc, Bool.and_eq_true, beq_iff_eq, and_assoc, distanceFrom]
      constructor
      · rintro ⟨hst, hch, hle⟩
        exact ⟨hst, hch, p, sense, h, rfl, of_decide_eq_true hle⟩
      · rintro ⟨hst, hch, _, _, _, heq, hle⟩
        cases heq
        exact ⟨hst, hch, decide_eq_true hle⟩

theorem mem_watchesWhere {s : State} {p : Watch → Bool} {i : WatchIx} :
    i ∈ watchesWhere s p ↔ ∃ w, s.watches[i] = some w ∧ p w = true := by
  unfold watchesWhere
  rw [List.mem_filter]
  cases s.watches[i] <;> simp [mem_allWatches]

theorem sorted_watchesWhere (s : State) (p : Watch → Bool) : (watchesWhere s p).Pairwise (· < ·) :=
  List.Pairwise.filter _ (by decide)

/-! ### Halt orders to several channels -/

/-- The orders change the channels and the tail of the posting queue. -/
theorem haltOrders_frame (l : List Chan) (mode : StopMode) (byWatch : Bool) (s : State) :
    (eachAct l (fun c => haltOrder c mode byWatch) s).1 = { s with
        chans := (eachAct l (fun c => haltOrder c mode byWatch) s).1.chans
        posting := (eachAct l (fun c => haltOrder c mode byWatch) s).1.posting }
      ∧ ∃ more, (eachAct l (fun c => haltOrder c mode byWatch) s).1.posting = s.posting ++ more := by
  induction l generalizing s with
  | nil => exact ⟨rfl, [], by simp⟩
  | cons c rest ih =>
    have h := haltOrder_on c mode byWatch s
    obtain ⟨hframe, more, hmore⟩ := ih (haltOrder c mode byWatch s).1
    obtain ⟨first, hfirst⟩ := h.posting
    rw [eachAct_cons]
    refine ⟨?_, first ++ more, ?_⟩
    · simp only
      rw [hframe, h.frame]
    · rw [hmore, hfirst, List.append_assoc]

/-! ### A watch that fires (R101, R103 to R106) -/

/-- The state as a watch that fires has written the AUX latch and told the host, before its orders (R103). -/
def State.watchTold (s : State) (i : WatchIx) (w : Watch) (up : Bool) : State :=
  let w' : Watch := { w with state := w.cond.firedState }
  let s1 := watchAux w' (s.setWatch i (some w'))
  if w'.notify then s1.postNotice (watchNotice s1 i w' up) else s1

theorem fireWatch_eq {s : State} {i : WatchIx} {w : Watch} (up : Bool) (h : s.watches[i] = some w) :
    fireWatch up i s = (armWatch w.arm ((haltMask w.decel .decel true (s.watchTold i w up)).andThen
        (haltMask w.abrupt .abrupt true)).1,
      ((haltMask w.decel .decel true (s.watchTold i w up)).andThen (haltMask w.abrupt .abrupt true)).2) := by
  simp only [fireWatch, h]
  rfl

/-- The AUX latch once a watch has written it (R103, R111). -/
def State.auxAfter (s : State) (w : Watch) : Mask := if s.estopLatch then s.aux else (s.aux ||| w.auxSet) &&& ~~~w.auxClear

theorem watchAux_eq (w : Watch) (s : State) : watchAux w s = { s with aux := s.auxAfter w } := by
  unfold watchAux State.auxAfter
  split <;> rfl

/-- The notice of a watch that fires (R104). -/
def State.watchRecord (s : State) (i : WatchIx) (w : Watch) (up : Bool) : Cpl :=
  { (s.notice noticeWatch (auxNat i.val) (chanByte w.channel) (s.position w.channel)
      (watchAuxA { w with state := w.cond.firedState } up) (auxMask (s.auxAfter w))).showing s w.channel with
    lost := BitVec.ofNat 8 s.lost }

theorem watchTold_eq (s : State) (i : WatchIx) (w : Watch) (up : Bool) : s.watchTold i w up = { s with
    watches := s.watches.set i (some { w with state := w.cond.firedState }), aux := s.auxAfter w
    posting := s.posting ++ if w.notify = true ∧ s.notices < 16 then [s.watchRecord i w up] else []
    lost := if w.notify then if s.notices < 16 then 0 else min 255 (s.lost + 1) else s.lost } := by
  let w' : Watch := { w with state := w.cond.firedState }
  let t : State := { s with watches := s.watches.set i (some w'), aux := s.auxAfter w }
  have ht : s.watchTold i w up = if w.notify then t.postNotice (watchNotice t i w' up) else t := by
    simp only [State.watchTold, watchAux_eq]
    rfl
  rw [ht]
  by_cases hn : w.notify = true
  · by_cases hroom : s.notices < 16
    · rw [if_pos hn, postNotice_room (s := t) hroom, if_pos ⟨hn, hroom⟩, if_pos hn, if_pos hroom]
      rfl
    · rw [if_pos hn, postNotice_full (s := t) (Nat.not_lt.mp hroom), if_neg fun h => hroom h.2, if_pos hn, if_neg hroom,
        List.append_nil]
  · rw [if_neg hn, if_neg fun h => hn h.1, if_neg hn, List.append_nil]

theorem armWatch_eq (target : Option WatchIx) (s : State) :
    armWatch target s = { s with watches := (armWatch target s).watches }
      ∧ ∀ j : WatchIx, (armWatch target s).watches[j] = if target = some j then
          (s.watches[j]).map fun x => if x.state = .dormant then { x with state := .armed } else x
        else s.watches[j] := by
  cases target with
  | none => exact ⟨rfl, fun j => by simp [armWatch]⟩
  | some k =>
    cases hk : s.watches[k] with
    | none => exact ⟨by simp [armWatch, hk], fun j => by
        by_cases hj : k = j
        · subst hj; simp [armWatch, hk]
        · simp [armWatch, hk, hj]⟩
    | some w =>
      by_cases hd : w.state = .dormant
      · refine ⟨by simp [armWatch, hk, hd, State.setWatch], fun j => ?_⟩
        by_cases hj : k = j
        · subst hj; simp [armWatch, hk, hd, State.setWatch]
        · simp [armWatch, hk, hd, hj, State.setWatch, Fin.val_inj]
      · refine ⟨by simp [armWatch, hk, hd], fun j => ?_⟩
        by_cases hj : k = j
        · subst hj; simp [armWatch, hk, hd]
        · simp [armWatch, hk, hd, hj]

/-- A watch that fires without orders and without a watch to arm sends nothing on (R103). -/
theorem fireWatch_plain {s : State} {i : WatchIx} {w : Watch} (up : Bool) (h : s.watches[i] = some w) (hd : w.decel = 0)
    (ha : w.abrupt = 0) (harm : w.arm = none) : fireWatch up i s = (s.watchTold i w up, []) := by
  have hnone (mode : StopMode) (t : State) : haltMask 0 mode true t = (t, []) := by
    have hchans : chansOf 0 = [] := by decide
    rw [haltMask, hchans, eachAct_nil]
  rw [fireWatch_eq up h, hd, ha, harm]
  simp only [Act.andThen, hnone]
  rfl

theorem watchAuxA_eq (w : Watch) (up : Bool) : watchAuxA w up = auxNat (match w.cond with
    | .position _ _ _ => (if up then 2 else 0) + 256 * watchCode (some w)
    | .edge input _ _ => 1 + (if up then 2 else 0) + 16 * input.val + 256 * watchCode (some w)) := by
  unfold watchAuxA auxNat
  cases w.cond <;> cases up <;> rfl

theorem firedState_eq (cond : WatchCond) : cond.firedState = match cond with
    | .position _ _ none => .spent
    | .position _ _ (some _) => .cooling
    | .edge _ _ rearm => if rearm then .armed else .spent := by
  cases cond with
  | position p sense rearm => cases rearm <;> rfl
  | edge input edge rearm => cases rearm <;> rfl

theorem firedState_ne_dormant (cond : WatchCond) : cond.firedState ≠ .dormant := by
  cases cond with
  | position p sense rearm => cases rearm <;> exact WatchState.noConfusion
  | edge input edge rearm => cases rearm <;> exact WatchState.noConfusion

/-- A watch's orders, DECEL before ABRUPT, change the channels and the tail of the posting queue (R103, R107). -/
theorem watchOrders_frame (w : Watch) (t : State) :
    let u := ((haltMask w.decel .decel true t).andThen (haltMask w.abrupt .abrupt true)).1
    u = { t with chans := u.chans, posting := u.posting } ∧ ∃ more, u.posting = t.posting ++ more := by
  intro u
  have hu : u = (haltMask w.abrupt .abrupt true (haltMask w.decel .decel true t).1).1 := rfl
  obtain ⟨hslow, a, ha⟩ : _ ∧ ∃ more, (haltMask w.decel .decel true t).1.posting = t.posting ++ more :=
    haltOrders_frame (chansOf w.decel) .decel true t
  obtain ⟨hstop, b, hb⟩ := haltOrders_frame (chansOf w.abrupt) .abrupt true (haltMask w.decel .decel true t).1
  change (haltMask w.decel .decel true t).1 = { t with
    chans := (haltMask w.decel .decel true t).1.chans, posting := (haltMask w.decel .decel true t).1.posting } at hslow
  change u = { (haltMask w.decel .decel true t).1 with chans := u.chans, posting := u.posting } at hstop
  change u.posting = _ at hb
  generalize (haltMask w.decel .decel true t).1 = v at *
  exact ⟨by rw [hstop, hslow], a ++ b, by rw [hb, ha, List.append_assoc]⟩

/-- Where a channel stands after the orders of a watch that fires (R103, R107). -/
theorem watchOrders_chan (s t : State) (w : Watch) (d : Chan) (h : t.chan d = s.chan d) :
    ((haltMask w.decel .decel true t).andThen (haltMask w.abrupt .abrupt true)).1.chan d
      = State.chan
          (let slowed := if hasChan w.decel d then (haltOrder d .decel true s).1 else s
          if hasChan w.abrupt d then (haltOrder d .abrupt true slowed).1 else slowed) d := by
  have hslow : (haltMask w.decel .decel true t).1.chan d
      = (if hasChan w.decel d then (haltOrder d .decel true s).1 else s).chan d := by
    rw [haltMask_chan, h]
    split
    · rw [(haltOrder_on d .decel true s).chan]
    · rfl
  show (haltMask w.abrupt .abrupt true (haltMask w.decel .decel true t).1).1.chan d = _
  rw [haltMask_chan, hslow]
  by_cases ha : hasChan w.abrupt d = true
  · simp only [ha, if_true, (haltOrder_on d .abrupt true _).chan]
  · simp only [ha, if_false, Bool.false_eq_true]

/-- What a step hands to the watch unit (R98, R99, R101). -/
theorem takeStep_spec (s : State) (c : Chan) (position : Word) (positive : Bool) (h : s.part = .running ∨ s.part = .draining) :
    takeStep c position positive s = eachAct (watchesWhere s fun w => firesOnStep w c position positive)
      (fireWatch positive) (rearmCooling c position s) := if_pos (evaluatesWatches_iff.mpr h)

/-- Settles O46: a step tests every watch and fires those it meets, each of which carries out its actions; the emission of a
step hands it to the watch unit. -/
theorem watchesFireAndAct : Obligations.WatchesFireAndAct := by
  refine ⟨fun s c position positive => ?_, fun s i w up hw => ?_, fun s c x h => ?_⟩
  · intro a
    refine ⟨fun hno => if_neg fun hev => hno (evaluatesWatches_iff.mp hev), fun hev => ?_, fun w => rearms_iff⟩
    obtain ⟨hrearmed, hframe⟩ := rearmCooling_rearmed c position s
    refine ⟨rearmCooling c position s, watchesWhere s fun w => firesOnStep w c position positive, hframe, hrearmed,
      sorted_watchesWhere _ _, fun i => ?_, takeStep_spec s c position positive hev⟩
    simp only [mem_watchesWhere, firesOnStep_iff]
    exact ⟨fun ⟨w, hw, sense, rearm, h⟩ => ⟨w, sense, rearm, hw, h⟩, fun ⟨w, sense, rearm, hw, h⟩ => ⟨w, hw, sense, rearm, h⟩⟩
  · intro t fired auxA record told
    let v := s.watchTold i w up
    have hv : v = _ := watchTold_eq s i w up
    let ordered := ((haltMask w.decel .decel true v).andThen (haltMask w.abrupt .abrupt true)).1
    have ht : t = armWatch w.arm ordered := congrArg Prod.fst (fireWatch_eq up hw)
    obtain ⟨harm, hwatches⟩ := armWatch_eq w.arm ordered
    obtain ⟨hordered, more, hmore⟩ := watchOrders_frame w v
    change ordered = { v with chans := ordered.chans, posting := ordered.posting } at hordered
    change ordered.posting = v.posting ++ more at hmore
    have hfired : ordered.watches = s.watches.set i (some fired) := by
      rw [hordered, hv]
      simp only [firedState_eq]
      rfl
    have hself : ordered.watches[i] = some fired := by simp [hfired]
    have hother (j : WatchIx) (hj : j ≠ i) : ordered.watches[j] = s.watches[j] := by
      simp [hfired, Fin.val_inj, Ne.symm hj]
    have haux : t.aux = s.auxAfter w := by rw [ht, harm, hordered, hv]
    have hrecord : record = s.watchRecord i w up := by
      simp only [record, haux, State.watchRecord, watchAuxA_eq, firedState_eq]
      rfl
    have htold : v.posting = s.posting ++ told := by
      simp only [hv, told, hrecord]
    have htframe : t = { s with
        chans := ordered.chans, watches := t.watches, aux := s.auxAfter w, posting := s.posting ++ told ++ more
        lost := v.lost } := by
      rw [ht, harm, hordered, hmore, htold, hv]
    refine ⟨?_, fun j hj hne => ?_, fun j hj he => ?_, ?_, ⟨more, ?_⟩, ?_, fun d => ?_, ?_⟩
    · rw [ht, hwatches, hself]
      split
      · have hne : fired.state ≠ .dormant := by
          have := firedState_ne_dormant w.cond
          rwa [firedState_eq] at this
        simp [hne]
      · rfl
    · rw [ht, hwatches, if_neg hne, hother j hj]
    · rw [ht, hwatches, if_pos he, hother j hj]
    · exact haux
    · rw [htframe]
    · rw [htframe]
      simp only [hv]
    · have hchan : t.chan d = ordered.chan d := by
        rw [htframe]
        rfl
      rw [hchan]
      exact watchOrders_chan s v w d (by rw [hv]; rfl)
    · rw [htframe]
  · intro ch next hmoving hx hdue
    let u : State := (s.setChan c (ch.afterEmit s.now x.rateSq)).showStep c next
    have hchan : u.chan c = ch.afterEmit s.now x.rateSq := s.chan_setChan_self c _
    have hkept := afterEmit_kept ch s.now x.rateSq
    refine ⟨u, rfl, fun d hd => State.chan_setChan_of_ne s hd _, ?_, ?_, ?_, ?_, fun m hm _ => ?_, ?_⟩
    · rw [State.position, hchan, hkept]
      rfl
    · rw [hchan, hkept]
    · rw [hchan, hkept]
    · rw [hchan, hkept]
    · rw [hchan]
      exact stepped_afterEmit x s.now hm
    · intro a
      rw [exec_stepEmission_due h hmoving hx hdue, emitStep_eq, settle_stepped]
      rfl

/-! ### Qualified edges (R100, R108) -/

/-- A command that its own condition holds back changes nothing. -/
theorem answers_unmet {s : State} (h : s.inReset = false) (hs : s.haltsSettled) {b : Bool} {f : State → State}
    (hb : b = false) : Answers (outcome s fun s => if b then f s else s) fun t =>
      t = { s with stall := t.stall, irq := t.irq, messages := t.messages } :=
  answers_nothing (f := fun s => if b then f s else s) h hs (if_neg (by simp [hb]))

/-- The watches that a qualified edge fires (R98, R100). -/
theorem takeEdge_eq (input : CapIx) (rise : Bool) (s : State) :
    takeEdge input rise s = eachAct
      (if s.part.evaluatesWatches then watchesWhere s fun w => firesOnEdge w input rise else []) (fireWatch rise) s := by
  unfold takeEdge
  split <;> rfl

/-- Settles O45: the edge sets its qualifier and fires the EDGE watches that agree with it. -/
theorem qualifiedEdgesFireWatches : Obligations.QualifiedEdgesFireWatches := by
  intro s input rise h hs q comes evaluates agrees v
  let fired : List WatchIx :=
    if s.part.evaluatesWatches then watchesWhere s fun w => firesOnEdge w input rise else []
  let met : Bool := s.captureCompletes input && (s.caps[input]).qualified != rise
  have hmet : met = true ↔ comes := by
    simp only [met, Bool.and_eq_true, bne_iff_ne]
    exact Iff.rfl
  have hmem (i : WatchIx) : i ∈ fired ↔ evaluates ∧ ∃ w, s.watches[i] = some w ∧ agrees w := by
    by_cases hev : s.part.evaluatesWatches = true
    · simp only [fired, if_pos hev, mem_watchesWhere, firesOnEdge_iff]
      exact ⟨fun hw => ⟨evaluatesWatches_iff.mp hev, hw⟩, And.right⟩
    · simp only [fired, if_neg hev, List.not_mem_nil, false_iff]
      exact fun hw => hev (evaluatesWatches_iff.mpr hw.1)
  have hsorted : fired.Pairwise (· < ·) := by
    simp only [fired]
    split
    · exact sorted_watchesWhere _ _
    · exact List.Pairwise.nil
  have hf (hc : comes) : (if met then takeQualifiedEdge input rise s else s) = (eachAct fired (fireWatch rise) v).settle := by
    have hchange : changeCapture input s = v := by
      have hq : (!q.qualified) = rise := by
        have := hc.2
        revert this
        cases q.qualified <;> cases rise <;> simp
      simp only [changeCapture, Qual.change, v, ← hq]
      rfl
    rw [if_pos (hmet.mpr hc), takeQualifiedEdge, hchange, takeEdge_eq]
    rfl
  have hcaps (j : CapIx) (hj : j ≠ input) : v.caps[j] = s.caps[j] := by
    simp [v, Fin.val_inj, Ne.symm hj]
  have hself : v.caps[input] = { q with before := none, qualified := rise } := by simp [v]
  refine ⟨fun hno => ?_, fun hc => ⟨fired, hsorted, hmem, ?_⟩, fun hc hnone => ?_, fun i w hc hev hw hag honly hd ha harm => ?_⟩
  · exact answers_unmet (b := met) h hs (Bool.eq_false_iff.mpr fun hm => hno (hmet.mp hm))
  · have hexec : exec (.qualifiedEdge input rise) s = _ := outcome_awake h _
    rw [hexec, ← hf hc]
  · have hnil : fired = [] := by
      refine List.eq_nil_iff_forall_not_mem.mpr fun i hi => ?_
      obtain ⟨hev, w, hw, hag⟩ := (hmem i).mp hi
      rcases hnone with hno | hno
      · exact hno hev
      · exact hno i w hw hag
    have hquiet := hf hc
    rw [hnil] at hquiet
    exact answers_state (f := fun s => if met then takeQualifiedEdge input rise s else s) h hquiet hs fun _ _ _ =>
      ⟨hself, hcaps, rfl⟩
  · have hone : fired = [i] := by
      have hnodup : fired.Nodup := hsorted.imp fun h => ne_of_lt h
      refine List.perm_singleton.mp ((List.perm_ext_iff_of_nodup hnodup (List.nodup_singleton i)).mpr fun j => ?_)
      rw [hmem, List.mem_singleton]
      constructor
      · rintro ⟨_, x, hx, hagrees⟩
        by_contra hj
        exact honly j x hj hx hagrees
      · rintro rfl
        exact ⟨hev, w, hw, hag⟩
    have hquiet := hf hc
    rw [hone, eachAct_singleton, fireWatch_plain rise (s := v) hw hd ha harm, settle_quiet, watchTold_eq] at hquiet
    refine answers_state (f := fun s => if met then takeQualifiedEdge input rise s else s) h hquiet hs fun _ _ _ => ?_
    intro notice
    refine ⟨hself, hcaps, ?_, fun j hj => ?_, rfl, fun hn => ?_, fun hn hroom => ?_, fun hn hfull => ?_, rfl⟩
    · simp
    · simp [v, Fin.val_inj, Ne.symm hj]
    · simp [hn, v]
    · have hroom' : v.notices < 16 := hroom
      simp only [hn, hroom', and_self, if_true]
      exact ⟨trivial, rfl⟩
    · have hfull' : ¬v.notices < 16 := Nat.not_lt.mpr hfull
      simp only [hn, hfull', and_false, if_false, if_true, List.append_nil]
      exact ⟨rfl, rfl⟩

end Sys2Proof.Machine
end

section
/-! What a halt order does to a channel, its entries and its head, state by state (O29). -/

namespace Sys2Proof.Machine

/-! ### The entries behind the head -/

/-- What a flushed entry completes with depends on the channel's position, the latch and the clock alone (R33, R55). -/
theorem cancelled_of_position {s t : State} {c : Chan} (hp : t.position c = s.position c) (hn : t.now = s.now)
    (hk : t.clock = s.clock) (ha : t.aux = s.aux) : cancelled? t c = cancelled? s c := by
  funext e
  cases e <;> simp [cancelled?, Cpl.showing, State.entryDone, State.done, hp, hn, hk, ha]

/-- A channel changed but for its position, and its flush. -/
theorem flushBehind_setChan {s : State} {c : Chan} {x : Channel} (hp : x.pgn.position = s.position c) (l : List Entry) :
    flushBehind c l (s.setChan c x) = ({ s.setChan c x with posting := s.posting ++ l.filterMap (cancelled? s c) },
      l.filterMap (withdrawn? c)) := by
  have hc : cancelled? (s.setChan c x) c = cancelled? s c :=
    cancelled_of_position ((s.position_setChan_self c x).trans hp) rfl rfl rfl
  rw [flushBehind_eq, hc]
  rfl

/-- Nor does the completion of an entry depend on the rest of the channel. -/
theorem entryDone_setChan {s : State} {c : Chan} {x : Channel} (hp : x.pgn.position = s.position c) (l : List Cpl)
    (kind : ReqKind) (tag : Word) (status : Status) (flags : Flags) (auxA auxB : Word) :
    State.entryDone { s.setChan c x with posting := l } c kind tag status flags auxA auxB
      = s.entryDone c kind tag status flags auxA auxB := by
  have hpos : State.position { s.setChan c x with posting := l } c = s.position c := (s.position_setChan_self c x).trans hp
  simp only [State.entryDone, hpos]
  rfl

/-! ### Entering HELD (R45, R55, R56) -/

/-- A head MOVE's completion as a halt order hands it over. -/
def haltedRecord (s : State) (c : Chan) (m : MoveEntry) (byLimit : Bool) : Cpl :=
  let k := haltedMove (s.chan c) m byLimit
  s.entryDone c .move k.tag k.status k.flags k.steps k.rate

/-- The completions of the entries that leave as channel c enters HELD (R55, R56). -/
def heldRecords (s : State) (c : Chan) (byLimit : Bool) : List Cpl :=
  match (s.chan c).queue with
  | [] => []
  | .move m :: behind => behind.filterMap (cancelled? s c)
      ++ if (s.chan c).pgn.pulseEnd.isSome then [] else [haltedRecord s c m byLimit]
  | .dwell tag _ :: behind => behind.filterMap (cancelled? s c)
      ++ [s.entryDone c .dwell tag .halted { Flags.clear with watchHalt := (s.chan c).watchHalt }
        (auxNat ((s.now - (s.chan c).dwellStart.getD s.now) / Config.cyclesPerUs)) 0]
  | .marker _ :: behind => behind.filterMap (cancelled? s c)
  | e :: behind => (e :: behind).filterMap (cancelled? s c)

/-- The withdrawals sent as channel c enters HELD (R11, R56). -/
def heldSignals (s : State) (c : Chan) : List Signal :=
  match (s.chan c).queue with
  | .marker i :: behind => behind.filterMap (withdrawn? c) ++ [.withdraw c i]
  | queue => queue.filterMap (withdrawn? c)

section HeldEntries
variable {s : State} {c : Chan} {tag : Word} {duration : Nat} {m : MoveEntry} {i : SlotIx} {behind : List Entry}

theorem heldRecords_move (hq : (s.chan c).queue = .move m :: behind) (byLimit : Bool) :
    heldRecords s c byLimit = behind.filterMap (cancelled? s c)
      ++ if (s.chan c).pgn.pulseEnd.isSome then [] else [haltedRecord s c m byLimit] := by
  unfold heldRecords
  rw [hq]

theorem heldRecords_dwell (hq : (s.chan c).queue = .dwell tag duration :: behind) (byLimit : Bool) :
    heldRecords s c byLimit = behind.filterMap (cancelled? s c)
      ++ [s.entryDone c .dwell tag .halted { Flags.clear with watchHalt := (s.chan c).watchHalt }
        (auxNat ((s.now - (s.chan c).dwellStart.getD s.now) / Config.cyclesPerUs)) 0] := by
  unfold heldRecords
  rw [hq]

theorem heldRecords_marker (hq : (s.chan c).queue = .marker i :: behind) (byLimit : Bool) :
    heldRecords s c byLimit = behind.filterMap (cancelled? s c) := by
  unfold heldRecords
  rw [hq]

theorem heldSignals_move (hq : (s.chan c).queue = .move m :: behind) : heldSignals s c = behind.filterMap (withdrawn? c) := by
  unfold heldSignals
  rw [hq]
  rfl

theorem heldSignals_dwell (hq : (s.chan c).queue = .dwell tag duration :: behind) :
    heldSignals s c = behind.filterMap (withdrawn? c) := by
  unfold heldSignals
  rw [hq]
  rfl

theorem heldSignals_marker (hq : (s.chan c).queue = .marker i :: behind) :
    heldSignals s c = behind.filterMap (withdrawn? c) ++ [.withdraw c i] := by
  unfold heldSignals
  rw [hq]

end HeldEntries

theorem position_afterHeld (ch : Channel) (b : Bool) : (ch.afterHeld b).pgn.position = ch.pgn.position :=
  (afterHeld_spec ch b).2.2.2.2

theorem enterHeld_eq (c : Chan) (byLimit : Bool) (s : State) :
    enterHeld c byLimit s = ({ s.setChan c ((s.chan c).afterHeld byLimit) with
      posting := s.posting ++ heldRecords s c byLimit }, heldSignals s c) := by
  have hp := position_afterHeld (s.chan c) byLimit
  have hflush := flushBehind_setChan (s := s) (c := c) hp
  have hdone (l : List Cpl) := entryDone_setChan (s := s) (c := c) hp l
  unfold enterHeld heldRecords heldSignals
  unfold Channel.afterHeld at hflush hdone ⊢
  cases hq : (s.chan c).queue with
  | nil =>
    simp only [hq, List.append_nil]
    rfl
  | cons e behind =>
    cases e with
    | move m =>
      simp only [hq] at hflush hdone ⊢
      simp only [hflush]
      cases hpulse : (s.chan c).pgn.pulseEnd with
      | some e =>
        simp only [Option.isSome_some, if_true, List.append_nil]
        rfl
      | none =>
        simp only [Option.isSome_none, Bool.false_eq_true, if_false, postKept, haltedRecord]
        rw [hpulse] at hdone
        simp only [Option.isSome_none, Bool.false_eq_true, if_false] at hdone
        rw [hdone, State.post, List.append_assoc]
        rfl
    | dwell tag d =>
      simp only [hq] at hflush hdone ⊢
      simp only [hflush]
      rw [hdone, State.post, List.append_assoc]
      rfl
    | setPosition tag v =>
      simp only [hq] at hflush hdone ⊢
      simp only [hflush]
    | mark tag x y =>
      simp only [hq] at hflush hdone ⊢
      simp only [hflush]
    | marker i =>
      simp only [hq] at hflush hdone ⊢
      simp only [hflush]

/-! ### Entering STOPPING (R26, R43, R55) -/

/-- The completions of the entries that leave as a RUNNING channel with head m enters STOPPING (R55, R57). -/
def stoppingRecords (s : State) (c : Chan) (m : MoveEntry) : List Cpl :=
  (s.chan c).queue.tail.filterMap (cancelled? s c)
    ++ if (s.chan c).pgn.emitted = 0 then [haltedRecord s c m false] else []

/-- A channel under the stopping law, before it is at rest (R43). -/
def Channel.slowed (ch : Channel) (m : MoveEntry) : Channel :=
  { ch with
    state := .stopping, queue := ch.queue.take 1, binding := ch.binding.onHalt, pgn := ch.pgn.startStopping m.profile }

theorem afterStopping_eq {ch : Channel} {m : MoveEntry} (hm : ch.headMove? = some m) :
    ch.afterStopping = if ch.pgn.emitted = 0 then (ch.slowed m).afterRest else ch.slowed m := by
  unfold Channel.afterStopping
  rw [hm]
  rfl

/-- The stopping law keeps the counts and the position (R43). -/
theorem startStopping_spec (p : Pgn) (prof : Profile) :
    (p.startStopping prof).position = p.position ∧ (p.startStopping prof).remaining = p.remaining
      ∧ (p.startStopping prof).emitted = p.emitted ∧ (p.startStopping prof).rateSq = p.rateSq := by
  unfold Pgn.startStopping
  simp only
  split
  · exact ⟨rfl, rfl, rfl, rfl⟩
  · split <;> exact ⟨rfl, rfl, rfl, rfl⟩

theorem atRest_startStopping (p : Pgn) (prof : Profile) : (p.startStopping prof).atRest = p.atRest := by
  unfold Pgn.startStopping
  simp only
  split
  · rfl
  · split <;> rfl

/-- The completion of a head that comes to rest as it starts to stop is that of its channel before (R26, R57). -/
theorem haltedMove_slowed (ch : Channel) (m : MoveEntry) : haltedMove (ch.slowed m) m false = haltedMove ch m false := by
  obtain ⟨_, hleft, hemit, hrate⟩ := startStopping_spec ch.pgn m.profile
  have hunbound : (ch.binding.onHalt == .unbound) = (ch.binding == .unbound) := by
    cases ch.binding <;> rfl
  simp only [haltedMove, haltFlags, Channel.slowed, Pgn.lastRate, hleft, hemit, hrate, hunbound]

theorem enterStopping_eq {c : Chan} {m : MoveEntry} {s : State} (hm : (s.chan c).headMove? = some m) :
    enterStopping c s = ({ s.setChan c (s.chan c).afterStopping with
      posting := s.posting ++ stoppingRecords s c m }, (s.chan c).queue.tail.filterMap (withdrawn? c)) := by
  have hslow : ((s.chan c).slowed m).pgn.position = s.position c := (startStopping_spec _ _).1
  have hflush := flushBehind_setChan hslow (s.chan c).queue.tail
  let u : State := { s.setChan c ((s.chan c).slowed m) with
    posting := s.posting ++ (s.chan c).queue.tail.filterMap (cancelled? s c) }
  have hu : u.chan c = (s.chan c).slowed m := s.chan_setChan_self c _
  have henter : enterStopping c s = (if (s.chan c).pgn.emitted = 0 then stopAtRest c u else u,
      (s.chan c).queue.tail.filterMap (withdrawn? c)) := by
    unfold enterStopping
    simp only [hm]
    have h := congrArg (fun a : Act => (if (s.chan c).pgn.emitted = 0 then stopAtRest c a.1 else a.1, a.2)) hflush
    exact h
  rw [henter, afterStopping_eq hm]
  unfold stoppingRecords
  by_cases hnone : (s.chan c).pgn.emitted = 0
  · have hhead : (u.chan c).headMove? = some m := by
      rw [hu, ← hm]
      unfold Channel.headMove? Channel.slowed
      cases (s.chan c).queue with
      | nil => rfl
      | cons e rest => cases e <;> rfl
    have hrecord : haltedRecord u c m false = haltedRecord s c m false := by
      simp only [haltedRecord, hu, haltedMove_slowed]
      exact entryDone_setChan hslow _ _ _ _ _ _ _
    have hchans : u.setChan c ((s.chan c).slowed m).afterRest = { s.setChan c ((s.chan c).slowed m).afterRest with
        posting := s.posting ++ (s.chan c).queue.tail.filterMap (cancelled? s c) } := by
      have h := s.setChan_setChan c ((s.chan c).slowed m) ((s.chan c).slowed m).afterRest
      exact congrArg (fun v : State => { v with
        posting := s.posting ++ (s.chan c).queue.tail.filterMap (cancelled? s c) }) h
    have hrest : stopAtRest c u = (u.setChan c ((s.chan c).slowed m).afterRest).post (haltedRecord s c m false) := by
      rw [stopAtRest_eq hhead, ← hrecord, ← hu]
      rfl
    rw [if_pos hnone, if_pos hnone, if_pos hnone, hrest, hchans, State.post, List.append_assoc]
  · rw [if_neg hnone, if_neg hnone, if_neg hnone, List.append_nil]

/-! ### The halt order (R53, R57) -/

/-- A channel marked by a halt order that a watch gave (R57). -/
def Channel.marked (ch : Channel) (byWatch : Bool) : Channel := { ch with watchHalt := ch.watchHalt || byWatch }

theorem State.setChan_chan (s : State) (c : Chan) : s.setChan c (s.chan c) = s := by
  have h : s.chans.set c (s.chan c) = s.chans := by
    ext d hd
    simp [State.chan]
  rw [State.setChan, h]

theorem markWatchHalt_eq (c : Chan) (byWatch : Bool) (s : State) :
    markWatchHalt c byWatch s = s.setChan c ((s.chan c).marked byWatch) := by
  cases byWatch with
  | true => simp [markWatchHalt, State.modChan, Channel.marked]
  | false =>
    have h : (s.chan c).marked false = s.chan c := by simp [Channel.marked]
    rw [h, State.setChan_chan]
    rfl

/-- A channel held by an order while its queue has a head, or stopped abruptly (R53, R56). -/
theorem haltOrder_held {c : Chan} {mode : StopMode} {byWatch : Bool} {s : State}
    (h : (s.chan c).state = .dwelling ∨ (s.chan c).state = .waiting
      ∨ ((s.chan c).state = .running ∨ (s.chan c).state = .stopping) ∧ mode = .abrupt) :
    haltOrder c mode byWatch s = ({ s.setChan c (((s.chan c).marked byWatch).afterHeld false) with
        posting := s.posting ++ heldRecords (s.setChan c ((s.chan c).marked byWatch)) c false },
      heldSignals (s.setChan c ((s.chan c).marked byWatch)) c) := by
  have hheld : haltOrder c mode byWatch s = enterHeld c false (s.setChan c ((s.chan c).marked byWatch)) := by
    rw [← markWatchHalt_eq]
    unfold haltOrder
    obtain h | h | ⟨h | h, ha⟩ := h <;> simp only [h]
    · rw [if_pos ha]
    · rw [if_pos ha]
  have hset := s.setChan_setChan c ((s.chan c).marked byWatch) (((s.chan c).marked byWatch).afterHeld false)
  rw [hheld, enterHeld_eq, State.chan_setChan_self]
  exact congrArg (fun v : State => (({ v with
      posting := s.posting ++ heldRecords (s.setChan c ((s.chan c).marked byWatch)) c false } : State),
    heldSignals (s.setChan c ((s.chan c).marked byWatch)) c)) hset

theorem haltOrder_idle {c : Chan} {s : State} (h : (s.chan c).state = .idle) (mode : StopMode) (byWatch : Bool) :
    haltOrder c mode byWatch s = enterHeld c false s := by
  unfold haltOrder
  rw [h]

theorem haltOrder_untouched {c : Chan} {s : State} (h : (s.chan c).state = .disabled ∨ (s.chan c).state = .held)
    (mode : StopMode) (byWatch : Bool) : haltOrder c mode byWatch s = (s, []) := by
  unfold haltOrder
  rcases h with h | h <;> rw [h]

/-- A STOPPING channel under a DECEL order is only marked (R53, R57). -/
theorem haltOrder_stopping {c : Chan} {mode : StopMode} {s : State} (h : (s.chan c).state = .stopping) (hm : mode ≠ .abrupt)
    (byWatch : Bool) : haltOrder c mode byWatch s = (s.setChan c ((s.chan c).marked byWatch), []) := by
  rw [← markWatchHalt_eq]
  unfold haltOrder
  rw [h]
  exact if_neg hm

/-- A RUNNING channel under a DECEL order enters STOPPING (R53, R55). -/
theorem haltOrder_running {c : Chan} {mode : StopMode} {m : MoveEntry} {s : State} (h : (s.chan c).state = .running)
    (ha : mode ≠ .abrupt) (hm : (s.chan c).headMove? = some m) (byWatch : Bool) :
    haltOrder c mode byWatch s = ({ s.setChan c ((s.chan c).marked byWatch).afterStopping with
        posting := s.posting ++ stoppingRecords (s.setChan c ((s.chan c).marked byWatch)) c m },
      (s.chan c).queue.tail.filterMap (withdrawn? c)) := by
  have henter : haltOrder c mode byWatch s = enterStopping c (s.setChan c ((s.chan c).marked byWatch)) := by
    rw [← markWatchHalt_eq]
    unfold haltOrder
    rw [h]
    exact if_neg ha
  have hself : (s.setChan c ((s.chan c).marked byWatch)).chan c = (s.chan c).marked byWatch := s.chan_setChan_self c _
  have hset := s.setChan_setChan c ((s.chan c).marked byWatch) ((s.chan c).marked byWatch).afterStopping
  rw [henter, enterStopping_eq (m := m) (by rw [hself]; exact hm), hself]
  exact congrArg (fun v : State => (({ v with
      posting := s.posting ++ stoppingRecords (s.setChan c ((s.chan c).marked byWatch)) c m } : State),
    (s.chan c).queue.tail.filterMap (withdrawn? c))) hset

theorem position_haltOrder (c : Chan) (mode : StopMode) (byWatch : Bool) (s : State) :
    (haltOrder c mode byWatch s).1.position c = s.position c := by
  rw [State.position, (haltOrder_on c mode byWatch s).chan]
  exact (afterOrder_keeps (s.chan c) mode byWatch).2.2

/-- The flush of a halt order reads the state after it as it reads the one before. -/
theorem cancelled_haltOrder (c : Chan) (mode : StopMode) (byWatch : Bool) (s : State) :
    cancelled? (haltOrder c mode byWatch s).1 c = cancelled? s c := by
  have hframe := (haltOrder_on c mode byWatch s).frame
  exact cancelled_of_position (position_haltOrder c mode byWatch s) (by rw [hframe]) (by rw [hframe]) (by rw [hframe])

theorem cancelled_marked (s : State) (c : Chan) (byWatch : Bool) :
    cancelled? (s.setChan c ((s.chan c).marked byWatch)) c = cancelled? s c :=
  cancelled_of_position (s.position_setChan_self c _) rfl rfl rfl

/-- The completion of a head MOVE that a halt order stops, as the statements give it (R57). -/
theorem haltedRecord_marked (s : State) (c : Chan) (m : MoveEntry) (byWatch : Bool) :
    haltedRecord (s.setChan c ((s.chan c).marked byWatch)) c m false
      = s.done .main ReqKind.move.code m.tag (if (s.chan c).pgn.remaining = 0 then .ok else .halted)
        { unbound := (s.chan c).binding == .unbound, short := false, overridden := m.overridden
          watchHalt := (s.chan c).watchHalt || byWatch } (chanByte c) (s.position c) (auxNat (s.chan c).pgn.emitted)
        (auxNat (if (s.chan c).pgn.emitted = 0 then 0 else isqrt (s.chan c).pgn.rateSq)) := by
  simp only [haltedRecord, State.chan_setChan_self, State.entryDone, State.position_setChan_self]
  rfl

theorem abruptStop_low {p : Pgn} (h : p.pulseEnd = none) : p.abruptStop = { p.atRest with stopHold := p.fell } := by
  unfold Pgn.abruptStop
  rw [h]

theorem abruptStop_high {p : Pgn} {e : Nat} (h : p.pulseEnd = some e) : p.abruptStop = { p with
    stopMode := .abrupt, phase := .none, schedule := none, settleEnd := none, lastEnd := none } := by
  unfold Pgn.abruptStop
  rw [h]

/-- A channel whose head MOVE is stopped abruptly while STEP is low (R45, R56). -/
theorem afterHeld_low {ch : Channel} {m : MoveEntry} {behind : List Entry} (hq : ch.queue = .move m :: behind)
    (hp : ch.pgn.pulseEnd = none) (b : Bool) : ch.afterHeld b = { ch.emptied .held with
      dwellStart := none, pgn := { ch.pgn.atRest with stopHold := ch.pgn.fell }, kept := none } := by
  simp only [Channel.afterHeld, hq, hp, abruptStop_low hp]
  rfl

/-- A channel whose head MOVE is stopped abruptly while STEP is high: its completion is kept back (R45, R56). -/
theorem afterHeld_high {ch : Channel} {m : MoveEntry} {behind : List Entry} (hq : ch.queue = .move m :: behind)
    (hp : ch.pgn.pulseEnd ≠ none) (b : Bool) : ch.afterHeld b = { ch.emptied .held with
      dwellStart := none, kept := some (haltedMove ch m b)
      pgn := { ch.pgn with stopMode := .abrupt, phase := .none, schedule := none, settleEnd := none, lastEnd := none } } := by
  obtain ⟨e, he⟩ := Option.ne_none_iff_exists'.mp hp
  simp only [Channel.afterHeld, hq, he, abruptStop_high he]
  rfl

theorem afterHeld_other {ch : Channel} (h : ch.headMove? = none) (b : Bool) :
    ch.afterHeld b = { ch.emptied .held with dwellStart := none } := by
  unfold Channel.afterHeld
  split
  · rename_i hq
    simp [Channel.headMove?, hq] at h
  · rfl

theorem onHalt_eq (b : Binding) : b.onHalt = if b = .notChained ∨ b = .unbound then b else .closed := by
  cases b <;> simp [Binding.onHalt]

/-- The stopping law of a head that has emitted a step (R43, R44). -/
theorem startStopping_moved {p : Pgn} (prof : Profile) (h : p.emitted ≠ 0) :
    (p.remaining = 0 ∨ p.rateSq ≤ prof.vs ^ 2 → p.startStopping prof = { p with
        stopMode := .decel, phase := .none, schedule := none, settleEnd := none
        lastEnd := some (p.lastStepAt + stepPeriod p.rateSq) })
      ∧ (¬(p.remaining = 0 ∨ p.rateSq ≤ prof.vs ^ 2) → p.startStopping prof = { p with
        stopMode := .decel, phase := .none, settleEnd := none, lastEnd := none
        schedule := some { due := p.lastStepAt + stepPeriod (fallSq p.rateSq (prof.vs ^ 2) prof.b)
                           rateSq := fallSq p.rateSq (prof.vs ^ 2) prof.b } }) := by
  constructor <;> intro hl <;> unfold Pgn.startStopping <;> simp only
  · rw [if_neg h, if_pos hl]
  · rw [if_neg h, if_neg hl]
    rfl

/-- An IDLE channel has no entry (R51). -/
theorem queue_idle {ch : Channel} (hs : ch.shaped = true) (h : ch.state = .idle) : ch.queue = [] := by
  simp only [Channel.shaped, h] at hs
  cases hq : ch.queue with
  | nil => rfl
  | cons e rest =>
    rw [hq] at hs
    cases hs

/-- Settles O29: what a halt order does to a channel in each state, and what a flushed entry completes with. -/
theorem haltOrderActsByState : Obligations.HaltOrderActsByState := by
  refine ⟨fun c mode byWatch s hshaped hmode => ?_, fun s c => ?_⟩
  swap
  · intro record
    exact ⟨fun _ => ⟨rfl, rfl⟩, fun _ _ => ⟨rfl, rfl⟩, fun _ _ => ⟨rfl, rfl⟩, fun _ _ _ => ⟨rfl, rfl⟩, fun _ => ⟨rfl, rfl⟩⟩
  intro a t ch found behind watched flushed withdrawn ended flags record rested heldWith
  have hon := haltOrder_on c mode byWatch s
  have hflushed : flushed = behind.filterMap (cancelled? s c) :=
    congrArg (fun f => behind.filterMap f) (cancelled_haltOrder c mode byWatch s)
  have hself : (s.setChan c (ch.marked byWatch)).chan c = ch.marked byWatch := s.chan_setChan_self c _
  refine ⟨hon.others, hon.frame, fun hst => haltOrder_untouched hst mode byWatch, fun hst => ?_,
    fun hst tag duration hq => ?_, fun hst i hq => ?_, fun hst ha m hq => ?_, ?_, fun hst hd => ?_⟩
  · have hq : ch.queue = [] := queue_idle hshaped hst
    have he : a = _ := (haltOrder_idle hst mode byWatch).trans (enterHeld_eq c false s)
    have hhead : ch.headMove? = none := by simp [Channel.headMove?, hq]
    have ht : t = _ := congrArg Prod.fst he
    refine ⟨?_, ?_, ?_⟩
    · rw [ht]
      exact (s.chan_setChan_self c _).trans (afterHeld_other hhead false)
    · rw [ht]
      simp [heldRecords, show (s.chan c).queue = [] from hq]
    · rw [he]
      simp [heldSignals, show (s.chan c).queue = [] from hq]
  · have he : a = _ := haltOrder_held (mode := mode) (byWatch := byWatch) (.inl hst)
    have hqm : ((s.setChan c (ch.marked byWatch)).chan c).queue = .dwell tag duration :: behind := by rw [hself]; exact hq
    have ht : t = _ := congrArg Prod.fst he
    have hhead : (ch.marked byWatch).headMove? = none := by simp [Channel.headMove?, Channel.marked, hq]
    refine ⟨?_, ?_, fun start hstart => ?_⟩
    · rw [ht]
      exact (s.chan_setChan_self c _).trans (afterHeld_other hhead false)
    · rw [he]
      exact heldSignals_dwell hqm
    · rw [ht]
      have hdwelt := entryDone_setChan (s := s) (c := c) (x := ch.marked byWatch) rfl s.posting
      have hstart' : ((s.setChan c (ch.marked byWatch)).chan c).dwellStart = some start := by rw [hself]; exact hstart
      have hrecords := heldRecords_dwell hqm false
      rw [hstart', hself] at hrecords
      refine (congrArg (s.posting ++ ·) hrecords).trans ?_
      rw [hflushed, cancelled_marked, List.append_assoc]
      exact congrArg (fun r => s.posting ++ (behind.filterMap (cancelled? s c) ++ [r])) (hdwelt _ _ _ _ _ _)
  · have he : a = _ := haltOrder_held (mode := mode) (byWatch := byWatch) (.inr (.inl hst))
    have hqm : ((s.setChan c (ch.marked byWatch)).chan c).queue = .marker i :: behind := by rw [hself]; exact hq
    have ht : t = _ := congrArg Prod.fst he
    have hhead : (ch.marked byWatch).headMove? = none := by simp [Channel.headMove?, Channel.marked, hq]
    refine ⟨?_, ?_, ?_⟩
    · rw [ht]
      exact (s.chan_setChan_self c _).trans (afterHeld_other hhead false)
    · rw [he]
      exact heldSignals_marker hqm
    · rw [ht]
      refine (congrArg (s.posting ++ ·) (heldRecords_marker hqm false)).trans ?_
      rw [hflushed, cancelled_marked]
  · have he : a = _ := haltOrder_held (mode := mode) (byWatch := byWatch) (.inr (.inr ⟨hst, ha⟩))
    have hqm : ((s.setChan c (ch.marked byWatch)).chan c).queue = .move m :: behind := by rw [hself]; exact hq
    have ht : t = _ := congrArg Prod.fst he
    have hchan : t.chan c = (ch.marked byWatch).afterHeld false := (congrArg (·.chan c) ht).trans (s.chan_setChan_self c _)
    refine ⟨?_, fun hp => ⟨?_, ?_⟩, fun hp => ⟨?_, ?_⟩⟩
    · rw [he]
      exact heldSignals_move hqm
    · rw [ht]
      have hp' : ((s.setChan c (ch.marked byWatch)).chan c).pgn.pulseEnd = none := by rw [hself]; exact hp
      have hrecords := heldRecords_move hqm false
      rw [hp', haltedRecord_marked, cancelled_marked] at hrecords
      refine (congrArg (s.posting ++ ·) hrecords).trans ?_
      rw [hflushed, List.append_assoc]
      rfl
    · exact hchan.trans (afterHeld_low (ch := ch.marked byWatch) hq hp false)
    · rw [ht]
      obtain ⟨e, hp⟩ := Option.ne_none_iff_exists'.mp hp
      have hp' : ((s.setChan c (ch.marked byWatch)).chan c).pgn.pulseEnd = some e := by rw [hself]; exact hp
      have hrecords := heldRecords_move hqm false
      rw [hp', cancelled_marked] at hrecords
      refine (congrArg (s.posting ++ ·) hrecords).trans ?_
      rw [hflushed]
      simp
    · exact hchan.trans (afterHeld_high (ch := ch.marked byWatch) hq hp false)
  · intro hst hd m hq vsSq slower last stopping
    have hm : ch.headMove? = some m := by simp [Channel.headMove?, hq]
    have habrupt : mode ≠ .abrupt := by simp [hd]
    have he : a = _ := haltOrder_running hst habrupt hm byWatch
    have ht : t = _ := congrArg Prod.fst he
    have hchan : t.chan c = _ := (congrArg (·.chan c) ht).trans
      ((s.chan_setChan_self c _).trans (afterStopping_eq (show (ch.marked byWatch).headMove? = _ from hm)))
    have hrecords : stoppingRecords (s.setChan c (ch.marked byWatch)) c m = behind.filterMap (cancelled? s c)
        ++ if ch.pgn.emitted = 0 then [haltedRecord (s.setChan c (ch.marked byWatch)) c m false] else [] := by
      unfold stoppingRecords
      rw [hself, cancelled_marked]
      rfl
    have hmoved : ch.pgn.emitted ≠ 0 → t.chan c = (ch.marked byWatch).slowed m := fun hn => hchan.trans (if_neg hn)
    have htake : ch.queue.take 1 = [.move m] := by rw [hq]; rfl
    refine ⟨by rw [he], fun h0 => ⟨?_, ?_⟩, fun hn => ⟨?_, ch.binding.onHalt, fun hb => ?_, fun hn hu => ?_, fun hl => ?_,
      fun hl => ?_⟩⟩
    · rw [ht]
      refine (congrArg (s.posting ++ ·) (hrecords.trans (congrArg (_ ++ ·) (if_pos h0)))).trans ?_
      rw [hflushed, haltedRecord_marked, List.append_assoc]
    · refine hchan.trans ((if_pos (show (ch.marked byWatch).pgn.emitted = 0 from h0)).trans ?_)
      exact congrArg (fun p => { ch.emptied .held with pgn := p }) (atRest_startStopping ch.pgn m.profile)
    · rw [ht]
      refine (congrArg (s.posting ++ ·) (hrecords.trans (congrArg (_ ++ ·) (if_neg hn)))).trans ?_
      rw [hflushed, List.append_nil]
    · rw [onHalt_eq, if_pos hb]
    · rw [onHalt_eq, if_neg (not_or.mpr ⟨hn, hu⟩)]
    · refine (hmoved hn).trans ?_
      simp only [Channel.slowed, Channel.marked, htake, (startStopping_moved m.profile hn).1 hl]
      rfl
    · refine (hmoved hn).trans ?_
      simp only [Channel.slowed, Channel.marked, htake, (startStopping_moved m.profile hn).2 hl]
      rfl
  · have he : a = _ := haltOrder_stopping hst (by simp [hd]) byWatch
    have ht : t = _ := congrArg Prod.fst he
    exact ⟨(congrArg (·.chan c) ht).trans (s.chan_setChan_self c _), by rw [ht]; rfl, by rw [he]⟩

end Sys2Proof.Machine
end

section
/-! Halt orders to several channels, the failure of a slot, and the withdrawals that follow (R53, R82, R84, R85). -/

namespace Sys2Proof.Machine

/-! ### The RENDEZVOUS completions among some records -/

@[simp] theorem rendezvousRecords_nil : rendezvousRecords [] = [] := rfl

@[simp] theorem rendezvousRecords_append (l m : List Cpl) :
    rendezvousRecords (l ++ m) = rendezvousRecords l ++ rendezvousRecords m := List.filter_append ..

/-- Completions of entries of a queue: neither notices nor RENDEZVOUS completions. -/
def EntryRecords (l : List Cpl) : Prop := ∀ r ∈ l, r.notice = false ∧ r.kind ≠ ReqKind.rendezvous.code

namespace EntryRecords

theorem nil : EntryRecords [] := fun _ h => nomatch h

theorem append {l m : List Cpl} (hl : EntryRecords l) (hm : EntryRecords m) : EntryRecords (l ++ m) := fun r hr =>
  (List.mem_append.mp hr).elim (hl r) (hm r)

theorem rendezvous {l : List Cpl} (h : EntryRecords l) : rendezvousRecords l = [] :=
  List.filter_eq_nil_iff.mpr fun r hr => by simp [(h r hr).2]

theorem notices {l : List Cpl} (h : EntryRecords l) : l.countP (·.notice) = 0 :=
  List.countP_eq_zero.mpr fun r hr => by simp [(h r hr).1]

theorem entryDone (s : State) (c : Chan) {kind : ReqKind} (h : kind.code ≠ ReqKind.rendezvous.code) (tag : Word)
    (status : Status) (flags : Flags) (auxA auxB : Word) :
    EntryRecords [s.entryDone c kind tag status flags auxA auxB] := fun r hr => by
  obtain rfl := List.mem_singleton.mp hr
  exact ⟨rfl, h⟩

end EntryRecords

theorem entryRecords_cancelled {s : State} {c : Chan} {e : Entry} {r : Cpl} (h : cancelled? s c e = some r) :
    r.notice = false ∧ r.kind ≠ ReqKind.rendezvous.code := by
  cases e with
  | marker i => cases h
  | move m => obtain rfl := Option.some.inj h; exact ⟨rfl, (by decide : ReqKind.move.code ≠ ReqKind.rendezvous.code)⟩
  | dwell tag d => obtain rfl := Option.some.inj h; exact ⟨rfl, (by decide : ReqKind.dwell.code ≠ ReqKind.rendezvous.code)⟩
  | setPosition tag v =>
    obtain rfl := Option.some.inj h
    exact ⟨rfl, (by decide : ReqKind.setPosition.code ≠ ReqKind.rendezvous.code)⟩
  | mark tag x y => obtain rfl := Option.some.inj h; exact ⟨rfl, (by decide : ReqKind.mark.code ≠ ReqKind.rendezvous.code)⟩

theorem entryRecords_flush (s : State) (c : Chan) (l : List Entry) : EntryRecords (l.filterMap (cancelled? s c)) := fun r hr => by
  obtain ⟨e, _, he⟩ := List.mem_filterMap.mp hr
  exact entryRecords_cancelled he

theorem entryRecords_haltedRecord (s : State) (c : Chan) (m : MoveEntry) (byLimit : Bool) :
    EntryRecords [haltedRecord s c m byLimit] := .entryDone _ _ (by decide) _ _ _ _ _

theorem entryRecords_held (s : State) (c : Chan) (byLimit : Bool) : EntryRecords (heldRecords s c byLimit) := by
  cases hq : (s.chan c).queue with
  | nil => simpa [heldRecords, hq] using EntryRecords.nil
  | cons e behind =>
    cases e with
    | move m =>
      rw [heldRecords_move hq]
      refine (entryRecords_flush s c behind).append ?_
      split
      · exact .nil
      · exact entryRecords_haltedRecord s c m byLimit
    | dwell tag d =>
      rw [heldRecords_dwell hq]
      exact (entryRecords_flush s c behind).append (.entryDone _ _ (by decide) _ _ _ _ _)
    | setPosition tag v =>
      have h := entryRecords_flush s c (.setPosition tag v :: behind)
      simpa [heldRecords, hq] using h
    | mark tag x y =>
      have h := entryRecords_flush s c (.mark tag x y :: behind)
      simpa [heldRecords, hq] using h
    | marker i =>
      rw [heldRecords_marker hq]
      exact entryRecords_flush s c behind

theorem entryRecords_stopping (s : State) (c : Chan) (m : MoveEntry) : EntryRecords (stoppingRecords s c m) := by
  refine (entryRecords_flush s c _).append ?_
  split
  · exact entryRecords_haltedRecord s c m false
  · exact .nil

/-! ### What a halt order hands over and reports -/

/-- The report of an entry that leaves is the withdrawal of a MARKER (R11). -/
theorem mem_withdrawn {c : Chan} {l : List Entry} {sig : Signal} (h : sig ∈ l.filterMap (withdrawn? c)) :
    ∃ i, sig = .withdraw c i ∧ Entry.marker i ∈ l := by
  obtain ⟨e, he, hw⟩ := List.mem_filterMap.mp h
  cases e with
  | marker i => exact ⟨i, (Option.some.inj hw).symm, he⟩
  | move m => cases hw
  | dwell tag d => cases hw
  | setPosition tag v => cases hw
  | mark tag x y => cases hw

theorem mem_heldSignals {s : State} {c : Chan} {sig : Signal} (h : sig ∈ heldSignals s c) :
    ∃ i, sig = .withdraw c i ∧ Entry.marker i ∈ (s.chan c).queue := by
  unfold heldSignals at h
  split at h
  · rename_i i behind hq
    rw [hq]
    rcases List.mem_append.mp h with h | h
    · obtain ⟨j, rfl, hj⟩ := mem_withdrawn h
      exact ⟨j, rfl, List.mem_cons_of_mem _ hj⟩
    · exact ⟨i, List.mem_singleton.mp h, List.mem_cons_self⟩
  · exact mem_withdrawn h

/-- A RUNNING channel without a head MOVE, which no reachable state has, is only marked. -/
theorem haltOrder_headless {c : Chan} {mode : StopMode} {s : State} (h : (s.chan c).state = .running) (ha : mode ≠ .abrupt)
    (hm : (s.chan c).headMove? = none) (byWatch : Bool) :
    haltOrder c mode byWatch s = (s.setChan c ((s.chan c).marked byWatch), []) := by
  have hm' : ((s.setChan c ((s.chan c).marked byWatch)).chan c).headMove? = none := by
    rw [State.chan_setChan_self]
    exact hm
  have henter : enterStopping c (s.setChan c ((s.chan c).marked byWatch)) = (s.setChan c ((s.chan c).marked byWatch), []) := by
    unfold enterStopping
    simp only [hm']
  rw [← henter, ← markWatchHalt_eq]
  unfold haltOrder
  rw [h]
  exact if_neg ha

/-- A halt order hands over completions of entries, and reports withdrawals of MARKERs in its channel's queue (R11, R55). -/
theorem haltOrder_reports (c : Chan) (mode : StopMode) (byWatch : Bool) (s : State) :
    (∃ more, (haltOrder c mode byWatch s).1.posting = s.posting ++ more ∧ EntryRecords more)
      ∧ ∀ sig ∈ (haltOrder c mode byWatch s).2, ∃ i, sig = .withdraw c i ∧ Entry.marker i ∈ (s.chan c).queue := by
  have quiet : (∃ more, s.posting = s.posting ++ more ∧ EntryRecords more) := ⟨[], by simp, .nil⟩
  have held (h : (s.chan c).state = .dwelling ∨ (s.chan c).state = .waiting
      ∨ ((s.chan c).state = .running ∨ (s.chan c).state = .stopping) ∧ mode = .abrupt) :
      (∃ more, (haltOrder c mode byWatch s).1.posting = s.posting ++ more ∧ EntryRecords more)
        ∧ ∀ sig ∈ (haltOrder c mode byWatch s).2, ∃ i, sig = .withdraw c i ∧ Entry.marker i ∈ (s.chan c).queue := by
    have he := haltOrder_held (byWatch := byWatch) h
    have hself : (s.setChan c ((s.chan c).marked byWatch)).chan c = (s.chan c).marked byWatch := s.chan_setChan_self c _
    refine And.intro ⟨_, congrArg (·.1.posting) he, entryRecords_held _ _ _⟩ fun sig hs => ?_
    rw [he] at hs
    have := mem_heldSignals hs
    rwa [hself] at this
  cases hst : (s.chan c).state with
  | disabled => rw [haltOrder_untouched (.inl hst)]; exact ⟨quiet, fun _ h => nomatch h⟩
  | held => rw [haltOrder_untouched (.inr hst)]; exact ⟨quiet, fun _ h => nomatch h⟩
  | idle =>
    rw [haltOrder_idle hst, enterHeld_eq]
    exact ⟨⟨_, rfl, entryRecords_held s c false⟩, fun _ h => mem_heldSignals h⟩
  | dwelling => exact held (.inl hst)
  | waiting => exact held (.inr (.inl hst))
  | stopping =>
    by_cases ha : mode = .abrupt
    · exact held (.inr (.inr ⟨.inr hst, ha⟩))
    · rw [haltOrder_stopping hst ha]
      exact ⟨quiet, fun _ h => nomatch h⟩
  | running =>
    by_cases ha : mode = .abrupt
    · exact held (.inr (.inr ⟨.inl hst, ha⟩))
    · cases hm : (s.chan c).headMove? with
      | none =>
        rw [haltOrder_headless hst ha hm]
        exact ⟨quiet, fun _ h => nomatch h⟩
      | some m =>
        rw [haltOrder_running hst ha hm]
        refine ⟨⟨_, rfl, entryRecords_stopping _ c m⟩, fun sig h => ?_⟩
        obtain ⟨i, rfl, hi⟩ := mem_withdrawn h
        exact ⟨i, rfl, List.mem_of_mem_tail hi⟩

/-- Halt orders to several channels, once each. -/
theorem haltOrders_reports {l : List Chan} (hl : l.Nodup) (mode : StopMode) (byWatch : Bool) (s : State) :
    (∃ more, (eachAct l (fun c => haltOrder c mode byWatch) s).1.posting = s.posting ++ more ∧ EntryRecords more)
      ∧ ∀ sig ∈ (eachAct l (fun c => haltOrder c mode byWatch) s).2,
        ∃ c ∈ l, ∃ i, sig = .withdraw c i ∧ Entry.marker i ∈ (s.chan c).queue := by
  induction l generalizing s with
  | nil => exact ⟨⟨[], by simp, .nil⟩, fun _ h => nomatch h⟩
  | cons c rest ih =>
    obtain ⟨hc, hr⟩ := List.nodup_cons.mp hl
    obtain ⟨⟨first, hfirst, hnone⟩, hsig⟩ := haltOrder_reports c mode byWatch s
    obtain ⟨⟨more, hmore, hnone'⟩, hsig'⟩ := ih hr (haltOrder c mode byWatch s).1
    rw [eachAct_cons]
    refine ⟨⟨first ++ more, by rw [hmore, hfirst, List.append_assoc], hnone.append hnone'⟩, fun sig h => ?_⟩
    rcases List.mem_append.mp h with h | h
    · obtain ⟨i, hi, hq⟩ := hsig sig h
      exact ⟨c, List.mem_cons_self, i, hi, hq⟩
    · obtain ⟨d, hd, i, hi, hq⟩ := hsig' sig h
      have hne : d ≠ c := fun he => hc (he ▸ hd)
      rw [(haltOrder_on c mode byWatch s).others d hne] at hq
      exact ⟨d, List.mem_cons_of_mem _ hd, i, hi, hq⟩

/-! ### Orders that find nothing to do (R53) -/

/-- An order of a mode finds the channel halted, stopping or with nothing to hold. -/
def Channel.obeyed (ch : Channel) (mode : StopMode) : Prop :=
  ch.state = .held ∨ ch.state = .disabled ∨ (ch.state = .stopping ∧ mode ≠ .abrupt) ∨ (ch.state = .idle ∧ ch.queue = [])

/-- Such an order hands over nothing and reports nothing. -/
theorem haltOrder_obeyed {c : Chan} {mode : StopMode} {s : State} (h : (s.chan c).obeyed mode) (byWatch : Bool) :
    (haltOrder c mode byWatch s).1.posting = s.posting ∧ (haltOrder c mode byWatch s).2 = [] := by
  obtain h | h | ⟨h, hm⟩ | ⟨h, hq⟩ := h
  · rw [haltOrder_untouched (.inr h)]; exact ⟨rfl, rfl⟩
  · rw [haltOrder_untouched (.inl h)]; exact ⟨rfl, rfl⟩
  · rw [haltOrder_stopping h hm]; exact ⟨rfl, rfl⟩
  · rw [haltOrder_idle h, enterHeld_eq]
    simp [heldRecords, heldSignals, hq]

theorem haltOrders_obeyed {l : List Chan} (hl : l.Nodup) {mode : StopMode} {s : State}
    (h : ∀ c ∈ l, (s.chan c).obeyed mode) (byWatch : Bool) :
    (eachAct l (fun c => haltOrder c mode byWatch) s).1.posting = s.posting
      ∧ (eachAct l (fun c => haltOrder c mode byWatch) s).2 = [] := by
  induction l generalizing s with
  | nil => exact ⟨rfl, rfl⟩
  | cons c rest ih =>
    obtain ⟨hc, hr⟩ := List.nodup_cons.mp hl
    obtain ⟨hpost, hsig⟩ := haltOrder_obeyed (h c List.mem_cons_self) byWatch
    obtain ⟨hposts, hsigs⟩ := ih (s := (haltOrder c mode byWatch s).1) hr fun d hd => by
      rw [(haltOrder_on c mode byWatch s).others d fun he => hc (he ▸ hd)]
      exact h d (List.mem_cons_of_mem _ hd)
    rw [eachAct_cons]
    exact ⟨hposts.trans hpost, by rw [hsig, hsigs]; rfl⟩

/-- An order leaves its channel with nothing for a later order of its mode to do (R51, R53). -/
theorem obeyed_afterOrder {ch : Channel} (h : ch.shaped = true) (mode : StopMode) (byWatch : Bool) :
    (ch.afterOrder mode byWatch).obeyed mode := by
  by_cases ha : mode = .abrupt
  · subst ha
    cases hst : ch.state with
    | disabled => exact .inr (.inl (by rw [afterOrder_of_held (.inr hst)]; exact hst))
    | held => exact .inl (by rw [afterOrder_of_held (.inl hst)]; exact hst)
    | idle => exact .inl (by simp [Channel.afterOrder, hst, (afterHeld_spec _ _).1])
    | dwelling => exact .inl (by simp [Channel.afterOrder, hst, (afterHeld_spec _ _).1])
    | waiting => exact .inl (by simp [Channel.afterOrder, hst, (afterHeld_spec _ _).1])
    | running => exact .inl (by simp [Channel.afterOrder, hst, (afterHeld_spec _ _).1])
    | stopping => exact .inl (by simp [Channel.afterOrder, hst, (afterHeld_spec _ _).1])
  · obtain hs | hs | hs := stopped_of_shaped h mode byWatch
    · exact .inr (.inr (.inl ⟨hs, ha⟩))
    · exact .inl hs
    · exact .inr (.inl hs)

/-! ### A slot that fails (R82) -/

/-- The channels that a failing slot halts. -/
def Slot.halts (sl : Slot) (withdrawn : Option Chan) : List Chan := (chansOf sl.members).filter fun c => some c ≠ withdrawn

/-- The channel whose position the completion of a failing slot shows (R82). -/
def Slot.reported (sl : Slot) (status : Status) (withdrawn : Option Chan) : Chan :=
  match status, withdrawn with
  | .memberLost, some c => c
  | _, _ => lowestChan sl.members

theorem failSlot_eq {s : State} {i : SlotIx} {sl : Slot} (h : s.slots[i] = some sl) (status : Status)
    (withdrawn : Option Chan) :
    failSlot i status withdrawn s = eachAct (sl.halts withdrawn) (fun c => haltOrder c (failureMode status) false)
      ((freeSlot i sl s).post (slotDone s i sl status (sl.reported status withdrawn))) := by
  unfold failSlot
  rw [h]
  rfl

theorem mem_slotHalts {sl : Slot} {w : Option Chan} {c : Chan} :
    c ∈ sl.halts w ↔ hasChan sl.members c = true ∧ some c ≠ w := by
  simp [Slot.halts, chansOf, mem_allChans, and_comm]

theorem nodup_slotHalts (sl : Slot) (w : Option Chan) : (sl.halts w).Nodup := (nodup_chansOf _).filter _

/-- What the failure of a slot changes (R82). -/
structure SlotFailed (s t : State) (i : SlotIx) (sl : Slot) (status : Status) (w : Option Chan) : Prop where
  chan : ∀ d, t.chan d = if d ∈ sl.halts w then (s.chan d).afterOrder (failureMode status) false else s.chan d
  posting : ∃ more, t.posting = s.posting ++ slotDone s i sl status (sl.reported status w) :: more
    ∧ rendezvousRecords more = []
  frame : t = { s with
    slots := s.slots.set i none, openList := s.openList.erase i, xsyncLow := if sl.external then false else s.xsyncLow
    xsyncRun := if sl.external then none else s.xsyncRun, chans := t.chans, posting := t.posting }

theorem failSlot_failed {s : State} {i : SlotIx} {sl : Slot} (h : s.slots[i] = some sl) (status : Status) (w : Option Chan) :
    SlotFailed s (failSlot i status w s).1 i sl status w
      ∧ ∀ sig ∈ (failSlot i status w s).2, ∃ c ∈ sl.halts w, ∃ j, sig = .withdraw c j ∧ Entry.marker j ∈ (s.chan c).queue := by
  rw [failSlot_eq h]
  have hnodup := nodup_slotHalts sl w
  have hchan := haltOrders_chan (sl.halts w) hnodup (failureMode status) false
    ((freeSlot i sl s).post (slotDone s i sl status (sl.reported status w)))
  obtain ⟨hframe, -⟩ := haltOrders_frame (sl.halts w) (failureMode status) false
    ((freeSlot i sl s).post (slotDone s i sl status (sl.reported status w)))
  obtain ⟨⟨more, hmore, hnone⟩, hsig⟩ := haltOrders_reports hnodup (failureMode status) false
    ((freeSlot i sl s).post (slotDone s i sl status (sl.reported status w)))
  refine ⟨⟨hchan, ⟨more, ?_, hnone.rendezvous⟩, hframe⟩, hsig⟩
  rw [List.append_cons]
  exact hmore

/-! ### Withdrawals (R84) -/

/-- Signals that only withdraw channels from slots. -/
def Withdrawals (l : List Signal) : Prop := ∀ sig ∈ l, ∃ c i, sig = .withdraw c i

/-- What withdrawals change: slots fail, the members of a failed slot receive its halt order, and completions are handed
over. -/
structure Withdrawn (s t : State) : Prop where
  chan : ∀ d, t.chan d = s.chan d ∨ (t.chan d = (s.chan d).afterOrder (failureMode (withdrawalStatus s)) false
    ∧ ∃ (i : SlotIx) (sl : Slot), s.slots[i] = some sl ∧ hasChan sl.members d = true)
  slots : ∀ i : SlotIx, t.slots[i] = s.slots[i] ∨ t.slots[i] = none
  posting : ∃ more, t.posting = s.posting ++ more
  frame : t = { s with
    chans := t.chans, slots := t.slots, openList := t.openList, xsyncLow := t.xsyncLow, xsyncRun := t.xsyncRun
    posting := t.posting }

namespace Withdrawn

theorem refl (s : State) : Withdrawn s s := ⟨fun _ => .inl rfl, fun _ => .inl rfl, ⟨[], by simp⟩, rfl⟩

theorem trans {s t u : State} (h : Withdrawn s t) (k : Withdrawn t u) : Withdrawn s u where
  chan d := by
    have hstatus : withdrawalStatus t = withdrawalStatus s := by rw [h.frame]; rfl
    have hfirst := h.chan d
    rcases k.chan d with hk | ⟨hk, i, sl, hi, hd⟩
    · rw [hk]
      exact hfirst
    · rw [hk, hstatus]
      have hi' : s.slots[i] = some sl := by
        rcases h.slots i with hs | hs
        · rw [← hs, hi]
        · rw [hs] at hi; cases hi
      rcases hfirst with hf | ⟨hf, _⟩
      · rw [hf]
        exact .inr ⟨rfl, i, sl, hi', hd⟩
      · rw [hf, afterOrder_again _ _ _ (.inl rfl)]
        exact .inr ⟨rfl, i, sl, hi', hd⟩
  slots i := by
    rcases k.slots i with hk | hk
    · rw [hk]; exact h.slots i
    · exact .inr hk
  posting := by
    obtain ⟨a, ha⟩ := h.posting
    obtain ⟨b, hb⟩ := k.posting
    exact ⟨a ++ b, by rw [hb, ha, List.append_assoc]⟩
  frame := by rw [k.frame, h.frame]

end Withdrawn

theorem slots_set_none (s : State) (i j : SlotIx) : (s.slots.set i none)[j] = s.slots[j] ∨ (s.slots.set i none)[j] = none := by
  by_cases h : i = j
  · subst h; simp
  · simp [Fin.val_inj, h]

/-- A slot that fails as withdrawals make it fail. -/
theorem SlotFailed.withdrawn {s t : State} {i : SlotIx} {sl : Slot} {status : Status} {w : Option Chan}
    (h : SlotFailed s t i sl status w) (hi : s.slots[i] = some sl)
    (hm : failureMode status = failureMode (withdrawalStatus s)) : Withdrawn s t where
  chan d := by
    rw [h.chan d, hm]
    split
    · rename_i hd
      exact .inr ⟨rfl, i, sl, hi, (mem_slotHalts.mp hd).1⟩
    · exact .inl rfl
  slots j := by
    rw [h.frame]
    exact slots_set_none s i j
  posting := by
    obtain ⟨more, hmore, _⟩ := h.posting
    exact ⟨_, hmore⟩
  frame := by rw [h.frame]

theorem takeWithdrawal_withdrawn (c : Chan) (i : SlotIx) (s : State) :
    Withdrawn s (takeWithdrawal c i s).1 ∧ Withdrawals (takeWithdrawal c i s).2 := by
  have hnone : Withdrawn s s ∧ Withdrawals [] := ⟨.refl s, fun _ h => nomatch h⟩
  unfold takeWithdrawal
  cases hi : s.slots[i] with
  | none => exact hnone
  | some sl =>
    simp only
    split
    · obtain ⟨hf, hsig⟩ := failSlot_failed hi (withdrawalStatus s) (some c)
      refine ⟨hf.withdrawn hi rfl, fun sig h => ?_⟩
      obtain ⟨d, _, j, hj, _⟩ := hsig sig h
      exact ⟨d, j, hj⟩
    · exact hnone

theorem takeWithdrawals {l : List Signal} (h : Withdrawals l) (s : State) :
    Withdrawn s (eachAct l takeSignal s).1 ∧ Withdrawals (eachAct l takeSignal s).2 := by
  induction l generalizing s with
  | nil => exact ⟨.refl s, fun _ h => nomatch h⟩
  | cons sig rest ih =>
    obtain ⟨c, i, rfl⟩ := h sig List.mem_cons_self
    obtain ⟨hfirst, hsent⟩ := takeWithdrawal_withdrawn c i s
    obtain ⟨hrest, hsent'⟩ := ih (fun x hx => h x (List.mem_cons_of_mem _ hx)) (takeWithdrawal c i s).1
    rw [eachAct_cons]
    exact ⟨hfirst.trans hrest, fun x hx => (List.mem_append.mp hx).elim (hsent x) (hsent' x)⟩

/-- The signals of an action that only withdraws, taken. -/
theorem settle_withdrawals {a : Act} (h : Withdrawals a.2) : Withdrawn a.1 a.settle := by
  have gen : ∀ (n : Nat) (l : List Signal) (s : State), Withdrawals l → Withdrawn s (settleRounds n l s) := by
    intro n
    induction n with
    | zero => exact fun _ s _ => .refl s
    | succ n ih =>
      intro l s hl
      cases l with
      | nil => exact .refl s
      | cons sig rest =>
        obtain ⟨hfirst, hsent⟩ := takeWithdrawals hl s
        exact hfirst.trans (ih _ _ hsent)
  exact gen 20 a.2 a.1 h

/-- Signals that no block has anything to do for leave the state as it is. -/
theorem settle_inert {a : Act} (h : ∀ sig ∈ a.2, takeSignal sig a.1 = (a.1, [])) : a.settle = a.1 := by
  obtain ⟨s, l⟩ := a
  have hround : eachAct l takeSignal s = (s, []) := by
    induction l with
    | nil => rfl
    | cons sig rest ih =>
      rw [eachAct_cons, h sig List.mem_cons_self, ih fun x hx => h x (List.mem_cons_of_mem _ hx)]
      rfl
  cases l with
  | nil => rfl
  | cons sig rest =>
    show settleRounds 19 (eachAct (sig :: rest) takeSignal s).2 (eachAct (sig :: rest) takeSignal s).1 = s
    rw [hround]
    rfl

/-- A withdrawal from a slot that is FREE, or that the channel is no member of, does nothing (R84). -/
theorem takeWithdrawal_inert {s : State} {c : Chan} {i : SlotIx}
    (h : ∀ sl, s.slots[i] = some sl → hasChan sl.members c = false) : takeWithdrawal c i s = (s, []) := by
  unfold takeWithdrawal
  cases hi : s.slots[i] with
  | none => rfl
  | some sl => simp [h sl hi]

theorem withdrawals_haltOrders {l : List Chan} (hl : l.Nodup) (mode : StopMode) (byWatch : Bool) (s : State) :
    Withdrawals (eachAct l (fun c => haltOrder c mode byWatch) s).2 := fun sig h => by
  obtain ⟨c, _, i, hi, _⟩ := (haltOrders_reports hl mode byWatch s).2 sig h
  exact ⟨c, i, hi⟩

end Sys2Proof.Machine
end

section
/-! The ends of a slot: release, expiry and withdrawal (O47). -/

namespace Sys2Proof.Machine

/-! ### Release (R80, R81, R89) -/

/-- Channels whose head is their only entry leave it and become IDLE (R9). -/
theorem runTails_last {l : List Chan} (hl : l.Nodup) {s : State} (h : ∀ c ∈ l, (s.chan c).queue.tail = []) :
    (eachAct l (fun c u => runHead c (u.chan c).queue.tail u) s).2 = []
      ∧ (∀ d, (eachAct l (fun c u => runHead c (u.chan c).queue.tail u) s).1.chan d
        = if d ∈ l then (s.chan d).emptied .idle else s.chan d)
      ∧ (eachAct l (fun c u => runHead c (u.chan c).queue.tail u) s).1 = { s with
        chans := (eachAct l (fun c u => runHead c (u.chan c).queue.tail u) s).1.chans } := by
  induction l generalizing s with
  | nil => exact ⟨rfl, fun d => by simp, rfl⟩
  | cons c rest ih =>
    obtain ⟨hc, hr⟩ := List.nodup_cons.mp hl
    have hhead : runHead c (s.chan c).queue.tail s = (s.setChan c ((s.chan c).emptied .idle), []) := by
      rw [h c List.mem_cons_self]
      rfl
    have hother (d : Chan) (hd : d ≠ c) := State.chan_setChan_of_ne s hd ((s.chan c).emptied .idle)
    obtain ⟨hsig, hchan, hframe⟩ := ih (s := s.setChan c ((s.chan c).emptied .idle)) hr fun d hd => by
      rw [hother d fun he => hc (he ▸ hd)]
      exact h d (List.mem_cons_of_mem _ hd)
    rw [eachAct_cons, hhead]
    refine ⟨hsig, fun d => (hchan d).trans ?_, hframe⟩
    by_cases hd : d = c
    · subst hd
      simp [hc]
    · simp [hd, hother d hd]

/-- The release of a slot (R80, R81). -/
theorem releaseSlot_eq {s : State} {i : SlotIx} {sl : Slot} (h : s.slots[i] = some sl) :
    releaseSlot i s
      = let a := eachAct ((chansOf sl.members).filter (waitsAt s i)) (fun c u => runHead c (u.chan c).queue.tail u)
          (freeSlot i sl s)
        (a.1.post (slotDone a.1 i sl .ok (lowestChan sl.members)), a.2) := by
  unfold releaseSlot
  rw [h]

theorem waitsAt_iff {s : State} {i : SlotIx} {c : Chan} :
    waitsAt s i c = true ↔ (s.chan c).state = .waiting ∧ ∃ behind, (s.chan c).queue = .marker i :: behind := by
  unfold waitsAt
  cases hq : (s.chan c).queue with
  | nil => simp
  | cons e behind => cases e <;> simp

/-! ### A DECEL order and the pending HALTs (R60) -/

/-- An order, no watch's, to a channel that is not in motion (R53, R56). -/
theorem afterOrder_resting {ch : Channel} (h : ch.state ∈ [ChanState.idle, .dwelling, .waiting]) (mode : StopMode) :
    ch.afterOrder mode false = ch.afterHeld false := by
  simp only [List.mem_cons, List.not_mem_nil, or_false] at h
  rcases h with h | h | h <;> simp [Channel.afterOrder, h]

/-- A channel that is not in motion has no MOVE at its head (R51). -/
theorem headMove_resting {ch : Channel} (hs : ch.shaped = true) (h : ch.state ∈ [ChanState.idle, .dwelling, .waiting]) :
    ch.headMove? = none := by
  simp only [List.mem_cons, List.not_mem_nil, or_false] at h
  unfold Channel.headMove?
  split
  · rename_i hq
    rcases h with h | h | h <;> simp [Channel.shaped, h, hq] at hs
  · rfl

/-- A RUNNING channel has a MOVE at its head (R51). -/
theorem headMove_shaped {ch : Channel} (hs : ch.shaped = true) (h : ch.state = .running) : ∃ m, ch.headMove? = some m := by
  simp only [Channel.shaped, h] at hs
  unfold Channel.headMove?
  split at hs <;> simp_all

/-- A RUNNING channel after a DECEL order (R43, R53). -/
theorem afterOrder_slowing {ch : Channel} {m : MoveEntry} (h : ch.state = .running) (hm : ch.headMove? = some m) :
    ch.afterOrder .decel false = if ch.pgn.emitted = 0 then (ch.slowed m).afterRest else ch.slowed m := by
  rw [← afterStopping_eq hm]
  simp [Channel.afterOrder, h]

/-- An order of mode DECEL to a channel already stopping or halted (R53). -/
theorem afterOrder_stopped {ch : Channel} (h : ch.state ∈ [ChanState.stopping, .held, .disabled]) :
    ch.afterOrder .decel false = ch := by
  simp only [List.mem_cons, List.not_mem_nil, or_false] at h
  rcases h with h | h | h <;> simp [Channel.afterOrder, h]

/-- A channel still coming to rest is as it was after a DECEL order that no watch gave. -/
theorem afterOrder_comingToRest {ch : Channel} (h : ch.comingToRest = true) : ch.afterOrder .decel false = ch := by
  simp only [Channel.comingToRest, Bool.or_eq_true, Bool.and_eq_true, beq_iff_eq] at h
  rcases h with h | ⟨h, _⟩
  · simp [Channel.afterOrder, h]
  · exact afterOrder_of_held (.inl h) _ _

theorem failureMode_withdrawal {s : State} :
    failureMode (withdrawalStatus s) = if s.estopLatch then .abrupt else .decel := by
  unfold withdrawalStatus
  cases s.estopLatch with
  | true => rfl
  | false => cases s.part <;> rfl

theorem withdrawalStatus_eq (s : State) : withdrawalStatus s = if s.estopLatch then .aborted
    else if s.part = .draining ∨ s.part = .failed then .cancelled else .memberLost := by
  unfold withdrawalStatus
  cases s.estopLatch with
  | true => rfl
  | false => cases s.part <;> rfl

/-- Withdrawals from a slot that is FREE by now do nothing (R84). -/
theorem settle_withdrawals_free {s : State} {i : SlotIx} {l : List Signal} (h : s.slots[i] = none)
    (hl : ∀ sig ∈ l, ∃ c, sig = .withdraw c i) : Act.settle (s, l) = s := by
  refine settle_inert (a := (s, l)) fun sig hs => ?_
  obtain ⟨c, rfl⟩ := hl sig hs
  exact takeWithdrawal_inert fun sl hi => by rw [h] at hi; cases hi

/-- The slot that failed is FREE, and the others are as they were (R82). -/
theorem SlotFailed.slots {s t : State} {i : SlotIx} {sl : Slot} {status : Status} {w : Option Chan}
    (h : SlotFailed s t i sl status w) : t.slots[i] = none ∧ ∀ j : SlotIx, j ≠ i → t.slots[j] = s.slots[j] := by
  rw [h.frame]
  exact ⟨by simp, fun j hj => by simp [Fin.val_inj, Ne.symm hj]⟩

/-- A slot that fails with no member withdrawn, with every withdrawal taken (R82 to R87). -/
theorem failSlot_settles {s : State} {i : SlotIx} {sl : Slot} (hi : s.slots[i] = some sl) (status : Status) :
    SlotFailed s (failSlot i status none s).1 i sl status none
      ∧ Withdrawn (failSlot i status none s).1 (failSlot i status none s).settle
      ∧ ((∀ c j, hasChan sl.members c = true → Entry.marker j ∈ (s.chan c).queue → j = i) →
        (failSlot i status none s).settle = (failSlot i status none s).1) := by
  obtain ⟨hfail, hsig⟩ := failSlot_failed hi status none
  refine ⟨hfail, settle_withdrawals fun sig hs => ?_, fun hno => settle_withdrawals_free hfail.slots.1 fun sig hs => ?_⟩
  · obtain ⟨d, _, j, hj, _⟩ := hsig sig hs
    exact ⟨d, j, hj⟩
  · obtain ⟨d, hd, j, rfl, hj⟩ := hsig sig hs
    exact ⟨d, by rw [hno d j (mem_slotHalts.mp hd).1 hj]⟩

theorem rendezvousRecords_slotDone (s : State) (i : SlotIx) (sl : Slot) (status : Status) (c : Chan) :
    rendezvousRecords [slotDone s i sl status c] = [slotDone s i sl status c] := by
  simp [rendezvousRecords, slotDone, State.done, Cpl.showing]

/-- Settles O47: a slot released, expired, or left by a withdrawn member. -/
theorem slotsEndInTime : Obligations.SlotsEndInTime := by
  refine ⟨fun s h hs => ?_, fun s c i => ?_⟩
  · intro nothing
    refine ⟨fun hno => ?_, fun i sl start hsync hi hrun hdue => ?_, fun i hno => ?_, fun i sl e hi hst he hdue hlatch => ?_⟩
    · rcases hno with hno | hno
      · refine answers_nothing (f := atDue (xsyncDone s.xsyncRun) takeXsync) h hs ?_
        have htake : takeXsync s = s := by
          unfold takeXsync
          rw [hno]
        unfold atDue
        split
        · exact htake
        · rfl
      · refine answers_early h hs _ fun hr => ?_
        obtain ⟨start, hstart, hle⟩ := reached_xsyncDone.mp hr
        exact absurd (hno start hstart) (Nat.not_lt.mpr hle)
    · intro members freed first record
      have hdone : reached s.now (xsyncDone s.xsyncRun) = true := reached_xsyncDone.mpr ⟨start, hrun, hdue⟩
      have htake : takeXsync s = (releaseSlot i s).settle := by
        unfold takeXsync
        rw [hsync]
      have hleaving (hw : ∀ c ∈ members, (s.chan c).state = .waiting ∧ ∃ behind, (s.chan c).queue = .marker i :: behind) :
          (chansOf sl.members).filter (waitsAt s i) = members :=
        List.filter_eq_self.mpr fun c hc => waitsAt_iff.mpr (hw c hc)
      have hrelease (hw : ∀ c ∈ members, (s.chan c).state = .waiting ∧ ∃ behind, (s.chan c).queue = .marker i :: behind) :
          releaseSlot i s = ((eachAct members (fun c u => runHead c (u.chan c).queue.tail u) freed).1.post
              (record (eachAct members (fun c u => runHead c (u.chan c).queue.tail u) freed).1),
            (eachAct members (fun c u => runHead c (u.chan c).queue.tail u) freed).2) := by
        rw [releaseSlot_eq hi, hleaving hw]
        rfl
      refine ⟨?_, hrelease, fun hlast => ?_⟩
      · rw [← htake]
        exact outcome_due h hdone takeXsync
      · obtain ⟨hsig, hchan, hframe⟩ := runTails_last (nodup_chansOf sl.members) (s := freed) fun c hc => by
          rw [show (freed.chan c).queue = [.marker i] from (hlast c hc).2]
          rfl
        have hrel := hrelease fun c hc => ⟨(hlast c hc).1, [], (hlast c hc).2⟩
        generalize eachAct members (fun c u => runHead c (u.chan c).queue.tail u) freed = b at *
        obtain ⟨u, sent⟩ := b
        obtain rfl : sent = [] := hsig
        replace hframe : u = { freed with chans := u.chans } := hframe
        replace hchan (d : Chan) : u.chan d = if d ∈ members then (s.chan d).emptied .idle else s.chan d := hchan d
        have hpos (d : Chan) : u.position d = s.position d := by
          rw [State.position, hchan]
          split <;> rfl
        have hclock : u.clock = s.clock := congrArg (·.clock) hframe
        have hnow : u.now = s.now := congrArg (·.now) hframe
        have hposting : u.posting = s.posting := congrArg (·.posting) hframe
        have hrecord : record u = record s := by
          simp only [record, State.done, Cpl.showing, hpos, hclock, hnow]
        have hf : atDue (xsyncDone s.xsyncRun) takeXsync s = u.post (record s) := by
          rw [atDue_reached hdone, htake, hrel, settle_quiet, hrecord]
        refine answers_state h hf ?_ fun stall irq messages => ⟨fun c hc => (hchan c).trans (if_pos hc),
          fun c hc => (hchan c).trans (if_neg hc), by rw [← hposting]; rfl, by rw [hframe]; rfl⟩
        refine haltsSettled_of hs (by rw [hframe]; rfl) fun d hd => ?_
        have hd' : d ∉ members := fun hm => by simp [Channel.comingToRest, (hlast d hm).1] at hd
        exact (congrArg Channel.comingToRest ((hchan d).trans (if_neg hd'))).trans hd
    · refine answers_early h hs _ fun hr => ?_
      obtain ⟨sl, hi, hst, e, he, hle⟩ := reached_dueExpiry.mp hr
      exact absurd (hno sl e hi he hst) (Nat.not_lt.mpr hle)
    · let a := failSlot i .expired none s
      have hdone : reached s.now (dueExpiry s.slots[i]) = true := by
        refine reached_dueExpiry.mpr ⟨sl, hi, ?_, e, he, hdue⟩
        rcases hst with hst | hst <;> rw [hst] <;> decide
      have hf : atDue (dueExpiry s.slots[i]) (fun s => (failSlot i .expired none s).settle) s = a.settle := atDue_reached hdone _
      obtain ⟨hfail, hw, hinert⟩ := failSlot_settles hi .expired
      change SlotFailed s a.1 i sl .expired none at hfail
      change Withdrawn a.1 a.settle at hw
      change _ → a.settle = a.1 at hinert
      have hlatch' : a.1.estopLatch = false := by rw [hfail.frame]; exact hlatch
      have hmode : failureMode (withdrawalStatus a.1) = .decel := by
        rw [failureMode_withdrawal, hlatch']
        rfl
      have hmember (d : Chan) : d ∈ sl.halts none ↔ hasChan sl.members d = true := by simp [mem_slotHalts]
      have hchan (d : Chan) (hd : hasChan sl.members d = true) : a.settle.chan d = (s.chan d).afterOrder .decel false := by
        have hfirst := (hfail.chan d).trans (if_pos ((hmember d).mpr hd))
        rcases hw.chan d with ho | ⟨ho, _⟩
        · rw [ho, hfirst]; rfl
        · rw [ho, hfirst, hmode]
          exact afterOrder_again _ .decel .decel (.inr rfl)
      have hordered (d : Chan) : a.settle.chan d = s.chan d ∨ a.settle.chan d = (s.chan d).afterOrder .decel false := by
        by_cases hd : hasChan sl.members d = true
        · exact .inr (hchan d hd)
        · have hfirst := (hfail.chan d).trans (if_neg fun hm => hd ((hmember d).mp hm))
          rcases hw.chan d with ho | ⟨ho, _⟩
          · exact .inl (ho.trans hfirst)
          · rw [ho, hfirst, hmode]
            exact .inr rfl
      have hsettled : a.settle.haltsSettled := by
        refine haltsSettled_of hs (by rw [hw.frame, hfail.frame]) fun d hd => ?_
        rcases hordered d with ho | ho
        · rwa [ho]
        · rwa [ho, afterOrder_comingToRest hd]
      obtain ⟨more, hmore, hnone⟩ := hfail.posting
      obtain ⟨others, hothers⟩ := hw.posting
      replace hmore : a.1.posting = s.posting ++ slotFailure s .expired i sl :: more := hmore
      generalize a.settle = u at *
      generalize a.1 = v at *
      refine answers_state h hf hsettled fun stall irq messages => ?_
      refine ⟨?_, fun c hc => ?_, fun c hc hst => ?_, fun c hc hst => ?_, fun c hc hst => ?_,
        ⟨more ++ others, ?_⟩, ?_, fun hno => ?_⟩
      · rcases hw.slots i with hs' | hs'
        · exact hs'.trans hfail.slots.1
        · exact hs'
      · exact (hchan c hc).trans (haltOrder_on c .decel false s).chan.symm
      · have hheld := (hchan c hc.1).trans (afterOrder_resting hst .decel)
        rw [afterHeld_other (headMove_resting hc.2 hst)] at hheld
        exact ⟨congrArg (·.state) hheld, congrArg (·.queue) hheld, congrArg (·.pgn) hheld⟩
      · obtain ⟨m, hm⟩ := headMove_shaped hc.2 hst
        have hslow := (hchan c hc.1).trans (afterOrder_slowing hst hm)
        refine (congrArg (·.state) hslow).trans ?_
        split <;> rfl
      · exact (hchan c hc.1).trans (afterOrder_stopped hst)
      · exact hothers.trans (by rw [hmore]; simp)
      · rw [hw.frame, hfail.frame]
      · obtain rfl := hinert hno
        refine ⟨by rw [hfail.frame], fun j hj => hfail.slots.2 j hj, fun c hc => ?_, by rw [hfail.frame], by rw [hfail.frame], ?_⟩
        · exact (hfail.chan c).trans (if_neg fun hm => by rw [(hmember c).mp hm] at hc; cases hc)
        · show rendezvousRecords (u.posting.drop s.posting.length) = _
          rw [hmore, List.drop_left]
          have hshown : rendezvousRecords [slotFailure s .expired i sl] = [slotFailure s .expired i sl] :=
            rendezvousRecords_slotDone s i sl .expired _
          exact (rendezvousRecords_append [slotFailure s .expired i sl] more).trans (by rw [hshown, hnone]; rfl)
  · intro a t
    refine ⟨fun hno => takeWithdrawal_inert hno, fun sl hi hc => ?_⟩
    intro status reported mode
    have hstatus : withdrawalStatus s = status := withdrawalStatus_eq s
    have hmode : failureMode (withdrawalStatus s) = mode := failureMode_withdrawal
    have ht : t = (failSlot i (withdrawalStatus s) (some c) s).1 := by
      simp only [t, a, takeWithdrawal, hi, hc, if_true]
    obtain ⟨hf, -⟩ := failSlot_failed hi (withdrawalStatus s) (some c)
    rw [← ht] at hf
    have hreported : sl.reported (withdrawalStatus s) (some c) = reported := by
      have gen : ∀ st : Status, sl.reported st (some c) = if st = .memberLost then c else lowestChan sl.members := by
        intro st
        cases st <;> rfl
      rw [hstatus]
      exact gen status
    obtain ⟨more, hmore, hnone⟩ := hf.posting
    refine ⟨?_, fun j hj => ?_, ?_, ⟨more, ?_, hnone⟩, fun d hd hne => ?_, fun d hd => ?_, ?_⟩
    · rw [hf.frame]; simp
    · rw [hf.frame]; simp [Fin.val_inj, Ne.symm hj]
    · rw [hf.frame]
    · rw [hmore, hreported, hstatus]; rfl
    · rw [hf.chan, if_pos (mem_slotHalts.mpr ⟨hd, by simpa using hne⟩), (haltOrder_on d mode false s).chan, hmode]
    · rw [hf.chan, if_neg]
      intro hm
      obtain ⟨hmem, hne⟩ := mem_slotHalts.mp hm
      rcases hd with hd | hd
      · rw [hd] at hmem; cases hmem
      · exact hne (by rw [hd])
    · rw [hf.frame]

end Sys2Proof.Machine
end

section
/-! HALT, and the pending-halt list at the end of every command (O30). -/

namespace Sys2Proof.Machine

/-! ### Orders to states that agree on the motion side -/

/-- Two states agree on what a halt order reads: the channels, the time and the AUX latch. -/
structure SameHalting (s t : State) : Prop where
  chan : ∀ c, t.chan c = s.chan c
  now : t.now = s.now
  clock : t.clock = s.clock
  aux : t.aux = s.aux

namespace SameHalting

variable {s t : State}

theorem position (h : SameHalting s t) (c : Chan) : t.position c = s.position c := by rw [State.position, h.chan]; rfl

theorem entryDone (h : SameHalting s t) (c : Chan) : t.entryDone c = s.entryDone c := by
  funext kind tag status flags auxA auxB
  simp only [State.entryDone, State.done, h.position, h.clock]

theorem cancelled (h : SameHalting s t) (c : Chan) : cancelled? t c = cancelled? s c :=
  cancelled_of_position (h.position c) h.now h.clock h.aux

theorem setChan (h : SameHalting s t) (c : Chan) (x : Channel) : SameHalting (s.setChan c x) (t.setChan c x) where
  chan d := by simp only [State.chan_setChan, h.chan]
  now := h.now
  clock := h.clock
  aux := h.aux

theorem haltedRecord (h : SameHalting s t) (c : Chan) (m : MoveEntry) (b : Bool) :
    haltedRecord t c m b = haltedRecord s c m b := by
  simp only [Machine.haltedRecord, h.chan, h.entryDone]

theorem heldRecords (h : SameHalting s t) (c : Chan) (b : Bool) : heldRecords t c b = heldRecords s c b := by
  simp only [Machine.heldRecords, h.chan, h.entryDone, h.cancelled, h.haltedRecord, h.now]

theorem heldSignals (h : SameHalting s t) (c : Chan) : heldSignals t c = heldSignals s c := by
  simp only [Machine.heldSignals, h.chan]

theorem stoppingRecords (h : SameHalting s t) (c : Chan) (m : MoveEntry) : stoppingRecords t c m = stoppingRecords s c m := by
  simp only [Machine.stoppingRecords, h.chan, h.cancelled, h.haltedRecord]

end SameHalting

/-- An order reports and hands over the same on both. -/
theorem haltOrder_same {s t : State} (h : SameHalting s t) (c : Chan) (mode : StopMode) (byWatch : Bool) :
    SameHalting (haltOrder c mode byWatch s).1 (haltOrder c mode byWatch t).1
      ∧ (haltOrder c mode byWatch t).2 = (haltOrder c mode byWatch s).2
      ∧ ∃ more, (haltOrder c mode byWatch s).1.posting = s.posting ++ more
        ∧ (haltOrder c mode byWatch t).1.posting = t.posting ++ more := by
  have hs := haltOrder_on c mode byWatch s
  have ht := haltOrder_on c mode byWatch t
  refine ⟨⟨fun d => ?_, ?_, ?_, ?_⟩, ?_⟩
  · by_cases hd : d = c
    · subst hd; rw [hs.chan, ht.chan, h.chan]
    · rw [hs.others d hd, ht.others d hd, h.chan]
  · rw [hs.frame, ht.frame]; exact h.now
  · rw [hs.frame, ht.frame]; exact h.clock
  · rw [hs.frame, ht.frame]; exact h.aux
  have hm : SameHalting (s.setChan c ((s.chan c).marked byWatch)) (t.setChan c ((t.chan c).marked byWatch)) := by
    rw [h.chan]
    exact h.setChan c _
  have held (hst : (s.chan c).state = .dwelling ∨ (s.chan c).state = .waiting
      ∨ ((s.chan c).state = .running ∨ (s.chan c).state = .stopping) ∧ mode = .abrupt) :
      (haltOrder c mode byWatch t).2 = (haltOrder c mode byWatch s).2
      ∧ ∃ more, (haltOrder c mode byWatch s).1.posting = s.posting ++ more
        ∧ (haltOrder c mode byWatch t).1.posting = t.posting ++ more := by
    have hst' := hst
    rw [← h.chan] at hst'
    rw [haltOrder_held hst, haltOrder_held hst']
    exact ⟨hm.heldSignals c, _, rfl, by simp only [hm.heldRecords]⟩
  have quiet : ∃ more, s.posting = s.posting ++ more ∧ t.posting = t.posting ++ more := ⟨[], by simp, by simp⟩
  cases hst : (s.chan c).state with
  | disabled =>
    rw [haltOrder_untouched (.inl hst), haltOrder_untouched (.inl (by rw [h.chan]; exact hst))]
    exact ⟨rfl, quiet⟩
  | held =>
    rw [haltOrder_untouched (.inr hst), haltOrder_untouched (.inr (by rw [h.chan]; exact hst))]
    exact ⟨rfl, quiet⟩
  | idle =>
    rw [haltOrder_idle hst, haltOrder_idle (by rw [h.chan]; exact hst), enterHeld_eq, enterHeld_eq]
    exact ⟨h.heldSignals c, _, rfl, by simp only [h.heldRecords]⟩
  | dwelling => exact held (.inl hst)
  | waiting => exact held (.inr (.inl hst))
  | stopping =>
    by_cases ha : mode = .abrupt
    · exact held (.inr (.inr ⟨.inr hst, ha⟩))
    · rw [haltOrder_stopping hst ha, haltOrder_stopping (by rw [h.chan]; exact hst) ha]
      exact ⟨rfl, quiet⟩
  | running =>
    by_cases ha : mode = .abrupt
    · exact held (.inr (.inr ⟨.inl hst, ha⟩))
    · cases hmove : (s.chan c).headMove? with
      | none =>
        rw [haltOrder_headless hst ha hmove, haltOrder_headless (by rw [h.chan]; exact hst) ha (by rw [h.chan]; exact hmove)]
        exact ⟨rfl, quiet⟩
      | some m =>
        rw [haltOrder_running hst ha hmove, haltOrder_running (m := m) (by rw [h.chan]; exact hst) ha (by rw [h.chan]; exact hmove)]
        exact ⟨by rw [h.chan], _, rfl, by simp only [hm.stoppingRecords]⟩

theorem haltOrders_same {s t : State} (h : SameHalting s t) (l : List Chan) (mode : StopMode) (byWatch : Bool) :
    (eachAct l (fun c => haltOrder c mode byWatch) t).2 = (eachAct l (fun c => haltOrder c mode byWatch) s).2
      ∧ ∃ more, (eachAct l (fun c => haltOrder c mode byWatch) s).1.posting = s.posting ++ more
        ∧ (eachAct l (fun c => haltOrder c mode byWatch) t).1.posting = t.posting ++ more := by
  induction l generalizing s t with
  | nil => exact ⟨rfl, [], by simp, by simp⟩
  | cons c rest ih =>
    obtain ⟨hsame, hsig, a, hs, ht⟩ := haltOrder_same h c mode byWatch
    obtain ⟨hsigs, b, hss, hts⟩ := ih hsame
    rw [eachAct_cons, eachAct_cons]
    exact ⟨by rw [hsig, hsigs], a ++ b, by rw [hss, hs, List.append_assoc], by rw [hts, ht, List.append_assoc]⟩

/-! ### What a halt order leaves (R53) -/

theorem cfg_afterOrder (ch : Channel) (mode : StopMode) (byWatch : Bool) : (ch.afterOrder mode byWatch).cfg = ch.cfg := by
  have hheld (x : Channel) : (x.afterHeld false).cfg = x.cfg := by
    unfold Channel.afterHeld
    split <;> rfl
  have hstop (x : Channel) : x.afterStopping.cfg = x.cfg := by
    unfold Channel.afterStopping
    cases x.headMove? with
    | none => rfl
    | some m => simp only; split <;> rfl
  have hmark : (if byWatch then { ch with watchHalt := true } else ch).cfg = ch.cfg := by split <;> rfl
  unfold Channel.afterOrder
  generalize (if byWatch then { ch with watchHalt := true } else ch) = x at *
  cases ch.state with
  | disabled => rfl
  | held => rfl
  | idle => exact hheld ch
  | dwelling => exact (hheld _).trans hmark
  | waiting => exact (hheld _).trans hmark
  | running => simp only; split <;> [exact (hheld _).trans hmark; exact (hstop _).trans hmark]
  | stopping => simp only; split <;> [exact (hheld _).trans hmark; exact hmark]

theorem Withdrawn.keeps {s t : State} (h : Withdrawn s t) (d : Chan) :
    t.position d = s.position d ∧ (t.chan d).cfg = (s.chan d).cfg := by
  rw [State.position]
  rcases h.chan d with ho | ⟨ho, _⟩ <;> rw [ho]
  · exact ⟨rfl, rfl⟩
  · exact ⟨(afterOrder_keeps _ _ false).2.2, cfg_afterOrder _ _ false⟩

theorem SlotFailed.keeps {s t : State} {i : SlotIx} {sl : Slot} {status : Status} {w : Option Chan}
    (h : SlotFailed s t i sl status w) (d : Chan) : t.position d = s.position d ∧ (t.chan d).cfg = (s.chan d).cfg := by
  rw [State.position, h.chan]
  split
  · exact ⟨(afterOrder_keeps _ _ false).2.2, cfg_afterOrder _ _ false⟩
  · exact ⟨rfl, rfl⟩

theorem afterOrder_abrupt {ch : Channel} (h : ch.state ≠ .disabled) (byWatch : Bool) :
    (ch.afterOrder .abrupt byWatch).state = .held := by
  cases hst : ch.state with
  | disabled => exact absurd hst h
  | held => rw [afterOrder_of_held (.inl hst), hst]
  | idle => simp [Channel.afterOrder, hst, (afterHeld_spec _ _).1]
  | dwelling => simp [Channel.afterOrder, hst, (afterHeld_spec _ _).1]
  | waiting => simp [Channel.afterOrder, hst, (afterHeld_spec _ _).1]
  | running => simp [Channel.afterOrder, hst, (afterHeld_spec _ _).1]
  | stopping => simp [Channel.afterOrder, hst, (afterHeld_spec _ _).1]

/-- No order makes a channel DISABLED (R53). -/
theorem afterOrder_disabled {ch : Channel} (mode : StopMode) (byWatch : Bool) :
    (ch.afterOrder mode byWatch).state = .disabled ↔ ch.state = .disabled := by
  constructor
  · intro h
    obtain ⟨_, he⟩ | ⟨hs, _⟩ | ⟨_, hs, _⟩ | ⟨hr, w, he⟩ := afterOrder_cases ch mode byWatch
    · rwa [he] at h
    · rw [hs] at h; cases h
    · rw [hs] at h; cases h
    · rw [he] at h
      obtain ⟨⟨he', _⟩ | ⟨hs, _⟩ | ⟨hs, _⟩, _⟩ := afterStopping_spec { ch with watchHalt := w }
      · rw [he'] at h; exact h
      · rw [hs] at h; cases h
      · rw [hs] at h; cases h
  · intro h
    rw [afterOrder_of_held (.inr h), h]

/-- A channel that orders have stopped is HELD or STOPPING, unless it is DISABLED. -/
theorem halted_of_stopped {ch : Channel} (h : ch.stopped) (hd : ch.state ≠ .disabled) :
    ch.state = .held ∨ ch.state = .stopping := by
  rcases h with h | h | h
  · exact .inr h
  · exact .inl h
  · exact absurd h hd

/-! ### The pending-halt list (R60) -/

theorem stillMoving_again (t : State) (m : Mask) : stillMoving t (stillMoving t m) = stillMoving t m := by
  refine mask_ext fun c => ?_
  simp only [hasChan_stillMoving]
  cases hasChan m c <;> simp

/-- The pending-halt list with one more HALT at its end, once the channels stand as they do. -/
theorem halts_append {s u : State} {h : PendingHalt} (hh : u.halts = s.halts ++ [h]) (hk : u.clock = s.clock) :
    haltsLeft u u = haltsLeft s u
        ++ (if stillMoving u h.waiting = 0 then [] else [{ h with waiting := stillMoving u h.waiting }])
      ∧ haltsDone u u = haltsDone s u ++ (if stillMoving u h.waiting = 0 then [haltDone s h] else []) := by
  constructor
  · simp only [haltsLeft, hh, List.filter_append, List.map_append]
    by_cases hz : stillMoving u h.waiting = 0#8 <;> simp [hz]
  · simp only [haltsDone, hh, List.filter_append, List.map_append, State.done, hk]
    by_cases hz : stillMoving u h.waiting = 0#8 <;> simp [hz, haltDone, State.done]

/-- The same in the words of the statement (R60). -/
theorem sweepHalts_filterMap (s : State) :
    haltsLeft s s = s.halts.filterMap fun h =>
      if stillMoving s h.waiting = 0 then none else some { h with waiting := stillMoving s h.waiting } := by
  unfold haltsLeft
  generalize s.halts = l
  induction l with
  | nil => rfl
  | cons h rest ih =>
    by_cases hz : stillMoving s h.waiting = 0
    · rw [List.filter_cons_of_neg (by simp [hz]), List.filterMap_cons, if_pos hz, ih]
    · rw [List.filter_cons_of_pos (by simpa using hz), List.filterMap_cons, if_neg hz, List.map_cons, ih]

/-- What a take answers whose owner may bring channels to rest (R60, R123). -/
theorem answers_taken {s u : State} {ring : Ring} {k : ReqKind} {r : Block} (h : Taken s ring k r)
    {accept : Block → Nat → State → State} (ha : accept r (s.ring ring).fetch (consume ring s) = u) {p : State → Prop}
    (hp : ∀ stall irq messages, p { u with
      halts := haltsLeft u u, posting := u.posting ++ haltsDone u u, stall := stall, irq := irq, messages := messages }) :
    Answers (outcome s (takeKind (some k) ring accept)) p := by
  subst ha
  refine answers_effect h.awake fun stall irq messages => ?_
  rw [takeKind_taken h]
  exact hp stall irq messages

theorem sameHalting_consume (s : State) (ring : Ring) : SameHalting s (consume ring s) := by
  refine ⟨fun c => chan_consume s ring c, ?_, ?_, ?_⟩ <;> cases ring <;> rfl

/-- A HALT that its owner takes: what its orders leave, then its place in the pending list (R59, R60). -/
theorem admitHalt_eq {r : Block} {mode : StopMode} (hm : haltMode? (blockByte r 9) = some mode) (s : State) :
    admitHalt r s = { (haltMask (recMask r 8) mode false s).settle with
      halts := (haltMask (recMask r 8) mode false s).settle.halts ++ [{
        tag := recTag r, halted := haltedMask s (recMask r 8), untouched := untouchedMask s (recMask r 8)
        waiting := stillMoving (haltMask (recMask r 8) mode false s).settle (recMask r 8) }] } := by
  unfold admitHalt
  rw [hm]

/-- A take that changes what withdrawals change, then the pending HALTs and what every command may show. -/
theorem frame_withdrawn {s u : State} {ring : Ring} (hu : u = { consume ring s with
      chans := u.chans, slots := u.slots, openList := u.openList, xsyncLow := u.xsyncLow, xsyncRun := u.xsyncRun
      posting := u.posting })
    (halts : List PendingHalt) (posting : List Cpl) (stall : StallCause) (irq : Bool) (messages : Nat) :
    ({ u with halts := halts, posting := posting, stall := stall, irq := irq, messages := messages } : State) = { s with
      chans := u.chans, slots := u.slots, openList := u.openList, xsyncLow := u.xsyncLow, xsyncRun := u.xsyncRun
      halts := halts, mainRing := u.mainRing, ctrlRing := u.ctrlRing, posting := posting, stall := stall, irq := irq
      messages := messages } := by
  rw [hu]
  cases ring <;> rfl

/-- Settles O30: HALT gives its order to every named channel, and completes once they are all at rest. -/
theorem haltStopsNamedChannels : Obligations.HaltStopsNamedChannels := by
  refine ⟨fun s r ht hs hshaped => ?_, fun s => ?_⟩
  · intro named halted untouched completion
    refine ⟨fun hnone => ?_, fun mode hmode => ?_⟩
    · exact answers_record ht hs (by simp only [admitHalt, hnone, refuse_plain ht])
    intro orders noMarker
    let v := consume .ctrl s
    have hsame : SameHalting s v := sameHalting_consume s .ctrl
    let a := haltMask named mode false v
    let u := a.settle
    have hw : Withdrawn a.1 u := settle_withdrawals (withdrawals_haltOrders (nodup_chansOf named) mode false v)
    obtain ⟨hframe, -⟩ : a.1 = { v with chans := a.1.chans, posting := a.1.posting } ∧ _ :=
      haltOrders_frame (chansOf named) mode false v
    obtain ⟨hsig, records, horders, hposting⟩ := haltOrders_same hsame (chansOf named) mode false
    have hchan (d : Chan) : a.1.chan d = if hasChan named d then (s.chan d).afterOrder mode false else s.chan d := by
      rw [← hsame.chan]
      exact haltMask_chan named mode false v d
    have hquiet (hno : noMarker) : u = a.1 := by
      have hnone : a.2 = [] := by
        refine List.eq_nil_iff_forall_not_mem.mpr fun sig hin => ?_
        obtain ⟨c, hc, i, _, hi⟩ := (haltOrders_reports (nodup_chansOf named) mode false v).2 sig hin
        rw [hsame.chan] at hi
        exact hno c i ((mem_chansOf named c).mp hc) hi
      show settleRounds 20 a.2 a.1 = a.1
      rw [hnone]
      rfl
    have hposted : a.1.posting = orders.posting := hposting.trans horders.symm
    obtain ⟨failures, hfailures⟩ := hw.posting
    let h : PendingHalt := { tag := recTag r, halted := haltedMask v named, untouched := untouchedMask v named
                             waiting := stillMoving u named }
    let w : State := { u with halts := u.halts ++ [h] }
    have haccept : admitHalt r v = w := admitHalt_eq hmode v
    have hu : u = { v with
        chans := u.chans, slots := u.slots, openList := u.openList, xsyncLow := u.xsyncLow, xsyncRun := u.xsyncRun
        posting := u.posting } := by
      rw [hw.frame, hframe]
    have huhalts : u.halts = s.halts := congrArg (·.halts) hu
    have huclock : u.clock = s.clock := congrArg (·.clock) hu
    obtain ⟨hleft, hdone⟩ := halts_append (s := s) (u := w) (h := h) (congrArg (· ++ [h]) huhalts) huclock
    have hwaits : stillMoving w h.waiting = stillMoving u named := stillMoving_again u named
    have hcompletion : haltDone s h = completion := by
      simp only [haltDone, h, haltedMask, untouchedMask, hsame.chan]
      rfl
    have hpending : h = { tag := recTag r, halted := halted, untouched := untouched, waiting := stillMoving u named } := by
      simp only [h, haltedMask, untouchedMask, hsame.chan]
      rfl
    have hslots : a.1.slots = s.slots := by rw [hframe]; rfl
    have hlatch : a.1.estopLatch = s.estopLatch := by rw [hframe]; rfl
    have hdecel (hl : s.estopLatch = false) : failureMode (withdrawalStatus a.1) = .decel := by
      rw [failureMode_withdrawal, hlatch, hl]
      rfl
    have hnofailure (hno : noMarker) : failures = [] := by
      rw [hquiet hno] at hfailures
      simpa using hfailures
    have hstopped (d : Chan) (hd : hasChan named d = true) : (u.chan d).stopped := by
      have hfirst := stopped_of_shaped (hshaped d) mode false
      rcases hw.chan d with ho | ⟨ho, _⟩ <;> rw [ho, hchan, if_pos hd]
      · exact hfirst
      · exact stopped_afterOrder hfirst _ _
    have hdisabled (d : Chan) : (u.chan d).state = .disabled ↔ (s.chan d).state = .disabled := by
      have hfirst : (a.1.chan d).state = .disabled ↔ (s.chan d).state = .disabled := by
        rw [hchan]
        split
        · exact afterOrder_disabled mode false
        · rfl
      rcases hw.chan d with ho | ⟨ho, _⟩ <;> rw [ho]
      · exact hfirst
      · exact (afterOrder_disabled _ _).trans hfirst
    refine answers_taken ht (accept := fun r _ => admitHalt r) haccept fun stall irq messages => ?_
    intro waits pending
    refine ⟨fun c _ hd => (hdisabled c).mpr hd, fun c hc hd ha => ?_, fun c hc hd => ?_, fun hl => ⟨fun c hc => ?_, fun c hc => ?_⟩,
      fun c hc hno => ?_, fun hno => ?_, fun hz => ?_, fun hz => ?_, ⟨records, horders⟩, fun c => ?_, ?_, ?_⟩
    · show (u.chan c).state = .held
      have hfirst := afterOrder_abrupt hd false
      rcases hw.chan c with ho | ⟨ho, _⟩ <;> rw [ho, hchan, if_pos hc, ha]
      · exact hfirst
      · rw [afterOrder_of_held (.inl hfirst)]
        exact hfirst
    · exact halted_of_stopped (hstopped c hc) fun he => hd ((hdisabled c).mp he)
    · show u.chan c = _
      rw [(haltOrder_on c mode false s).chan]
      rcases hw.chan c with ho | ⟨ho, _⟩ <;> rw [ho, hchan, if_pos hc]
      exact afterOrder_again _ _ _ (.inr (hdecel hl))
    · show u.chan c = _ ∨ u.chan c = _
      rw [(haltOrder_on c .decel false s).chan]
      rcases hw.chan c with ho | ⟨ho, _⟩ <;> rw [ho, hchan, if_neg (by simp [hc])]
      · exact .inl rfl
      · exact .inr (by rw [hdecel hl])
    · show u.chan c = _
      rcases hw.chan c with ho | ⟨_, i, sl, hi, hd⟩
      · rw [ho, hchan, if_neg (by simp [hc])]
      · rw [hslots] at hi
        rw [hno i sl hi] at hd
        cases hd
    · have hq := hquiet hno
      refine ⟨fun c hc => ?_, ?_⟩
      · show u.chan c = _
        rw [hq, hchan, if_neg (by simp [hc])]
      · show u.slots = s.slots ∧ u.openList = s.openList ∧ u.xsyncLow = s.xsyncLow ∧ u.xsyncRun = s.xsyncRun
        rw [hq, hframe]
        exact ⟨rfl, rfl, rfl, rfl⟩
    · have hz' : stillMoving w h.waiting = 0 := hwaits.trans hz
      rw [if_pos hz'] at hleft hdone
      refine ⟨hleft.trans (List.append_nil _), failures, ?_, hnofailure⟩
      refine (congrArg (u.posting ++ ·) hdone).trans ?_
      rw [hfailures, hposted, hcompletion]
      exact (List.append_assoc ..).symm
    · have hz' : stillMoving w h.waiting ≠ 0 := fun he => hz (hwaits.symm.trans he)
      rw [if_neg hz'] at hleft hdone
      refine ⟨?_, failures, ?_, hnofailure⟩
      · refine hleft.trans (congrArg (fun x => haltsLeft s w ++ [x]) ?_)
        rw [hwaits, hpending]
        rfl
      · refine (congrArg (u.posting ++ ·) hdone).trans ?_
        rw [hfailures, hposted, List.append_nil]
        rfl
    · show u.position c = s.position c ∧ (u.chan c).cfg = (s.chan c).cfg
      have hfirst : (a.1.chan c).pgn.position = s.position c ∧ (a.1.chan c).cfg = (s.chan c).cfg := by
        rw [hchan]
        split
        · exact ⟨(afterOrder_keeps _ mode false).2.2, cfg_afterOrder _ mode false⟩
        · exact ⟨rfl, rfl⟩
      exact ⟨(hw.keeps c).1.trans hfirst.1, (hw.keeps c).2.trans hfirst.2⟩
    · exact tookFrom_of_rings (congrArg (·.mainRing) hu) (congrArg (·.ctrlRing) hu)
    · exact frame_withdrawn hu (haltsLeft w w) (w.posting ++ haltsDone w w) stall irq messages
  · intro rested left
    have hleft (h : PendingHalt) : stillMoving s h.waiting = left h := by
      refine mask_ext fun c => ?_
      have hrested : restedHalted (s.chan c) = rested c := by
        simp only [restedHalted, Channel.atRest, rested]
        cases (s.chan c).state <;> rfl
      simp only [hasChan_stillMoving, left, hasChan_maskOf, hrested]
    rw [sweepHalts_eq, sweepHalts_filterMap]
    simp only [haltsDone, hleft]

end Sys2Proof.Machine
end

section
/-! CANCEL_RENDEZVOUS: the oldest open slot with the tag fails (O33). -/

namespace Sys2Proof.Machine

/-! ### The posting queue after a slot's failure (R82) -/

@[simp] theorem slotHalts_none (sl : Slot) : sl.halts none = chansOf sl.members := by
  simp [Slot.halts]

/-- A failing slot without a withdrawn member hands over its completion, then what its halt orders hand over. -/
theorem posting_failSlot {s v : State} {i : SlotIx} {sl : Slot} (hv : SameHalting s v) (h : v.slots[i] = some sl)
    {status : Status} (hmode : failureMode status = .decel) :
    (failSlot i status none v).1.posting = (eachAct (chansOf sl.members) (fun c => haltOrder c .decel false)
      { s with posting := v.posting ++ [slotDone v i sl status (sl.reported status none)] }).1.posting := by
  rw [failSlot_eq h, slotHalts_none, hmode]
  have hsame : SameHalting { s with posting := v.posting ++ [slotDone v i sl status (sl.reported status none)] }
      ((freeSlot i sl v).post (slotDone v i sl status (sl.reported status none))) := ⟨hv.chan, hv.now, hv.clock, hv.aux⟩
  obtain ⟨-, more, hs, ht⟩ := haltOrders_same hsame (chansOf sl.members) .decel false
  exact ht.trans hs.symm

/-- The pending HALTs that complete depend on the list, the channels and the clock alone (R60). -/
theorem haltsDone_congr {s u : State} (hh : u.halts = s.halts) (hk : u.clock = s.clock) (t : State) :
    haltsDone u t = haltsDone s t := by
  simp only [haltsDone, hh, State.done, hk]

theorem haltsLeft_congr {s u : State} (hh : u.halts = s.halts) (t : State) : haltsLeft u t = haltsLeft s t := by
  simp only [haltsLeft, hh]

theorem rendezvousRecords_haltsDone (s t : State) : rendezvousRecords (haltsDone s t) = [] := by
  have hkind : ReqKind.halt.code ≠ ReqKind.rendezvous.code := by decide
  refine List.filter_eq_nil_iff.mpr fun r hr => ?_
  obtain ⟨h, _, rfl⟩ := List.mem_map.mp hr
  simp [State.done, hkind]

/-! ### The slot that a tag names (R87) -/

theorem slotByTag_some {s : State} {target : Word} {older newer : List SlotIx} {i : SlotIx} {sl : Slot}
    (ho : s.openList = older ++ i :: newer) (hold : ∀ j ∈ older, ∀ x, s.slots[j] = some x → x.tag ≠ target)
    (hi : s.slots[i] = some sl) (htag : sl.tag = target) : slotByTag? s target = some i := by
  unfold slotByTag?
  rw [ho, List.find?_append, List.find?_eq_none.mpr fun j hj => ?_]
  · rw [Option.none_or, List.find?_cons_of_pos]
    simp only [hi, htag, beq_self_eq_true]
  · cases hx : s.slots[j] with
    | none => simp
    | some x => simpa using hold j hj x hx

theorem slotByTag_none {s : State} {target : Word}
    (h : ∀ i ∈ s.openList, ∀ sl, s.slots[i] = some sl → sl.tag ≠ target) : slotByTag? s target = none := by
  unfold slotByTag?
  refine List.find?_eq_none.mpr fun j hj => ?_
  cases hx : s.slots[j] with
  | none => simp
  | some x => simpa using h j hj x hx

/-- Settles O33: the oldest slot with the tag fails with CANCELLED, and the request completes with what had arrived there. -/
theorem cancelFailsTheOldestMatch : Obligations.CancelFailsTheOldestMatch := by
  intro s r ht hs target
  let v := consume .ctrl s
  have hv : v = { s with mainRing := v.mainRing, ctrlRing := v.ctrlRing } := consume_frame s .ctrl
  refine ⟨fun hnone => ?_, fun older i newer sl hopen hold hi htag => ?_⟩
  · refine answers_record ht hs ?_
    have hno : slotByTag? v target = none := slotByTag_none hnone
    simp only [admitCancelRendezvous]
    rw [show slotByTag? (consume .ctrl s) (blockWord r 8) = none from hno]
    exact refuse_plain ht .notFound
  · have hi' : v.slots[i] = some sl := hi
    have htagged : slotByTag? v target = some i := slotByTag_some hopen hold hi htag
    let a := failSlot i .cancelled none v
    let u := a.settle
    obtain ⟨hfail, hw, hinert⟩ := failSlot_settles hi' .cancelled
    change SlotFailed v a.1 i sl .cancelled none at hfail
    change Withdrawn a.1 u at hw
    change _ → u = a.1 at hinert
    let record := s.done .ctrl ReqKind.cancelRendezvous.code (recTag r) .ok .clear 0 0 (auxNat i.val) (auxMask sl.arrived)
    have hu : u = { v with
        chans := u.chans, slots := u.slots, openList := u.openList, xsyncLow := u.xsyncLow, xsyncRun := u.xsyncRun
        posting := u.posting } := by
      rw [hw.frame, hfail.frame]
    have haccept : admitCancelRendezvous r v = u.post record := by
      have harrived : arrivedOf v i = sl.arrived := by
        unfold arrivedOf
        rw [hi']
      have hclock : u.clock = s.clock := congrArg (·.clock) hu
      unfold admitCancelRendezvous
      rw [htagged]
      simp only [harrived, okDone, recKind_of_recReq ht.kind, record, State.done]
      rw [show (failSlot i .cancelled none v).settle = u from rfl, hclock]
    have hmember (d : Chan) : d ∈ sl.halts none ↔ hasChan sl.members d = true := by simp
    have hchan (d : Chan) : a.1.chan d = if hasChan sl.members d then (s.chan d).afterOrder .decel false else s.chan d := by
      rw [hfail.chan]
      simp [v]
      rfl
    obtain ⟨more, hmore, hnone⟩ := hfail.posting
    obtain ⟨others, hothers⟩ := hw.posting
    have hshown : slotDone v i sl .cancelled (sl.reported .cancelled none) = slotFailure s .cancelled i sl := rfl
    have hlatch : a.1.estopLatch = s.estopLatch := by
      rw [hfail.frame]
      rfl
    have hheld (c : Chan) (hc : hasChan sl.members c = true) :
        (((s.chan c).afterOrder .decel false).state = .held → (u.chan c).state = .held)
          ∧ (((s.chan c).afterOrder .decel false).stopped → (s.chan c).state ≠ .disabled →
            (u.chan c).state = .stopping ∨ (u.chan c).state = .held) := by
      have hfirst := (hchan c).trans (if_pos hc)
      constructor
      · intro hh
        rcases hw.chan c with ho | ⟨ho, _⟩ <;> rw [ho, hfirst]
        · exact hh
        · rw [afterOrder_of_held (.inl hh)]
          exact hh
      · intro hst hne
        have hstopped : (u.chan c).stopped := by
          rcases hw.chan c with ho | ⟨ho, _⟩ <;> rw [ho, hfirst]
          · exact hst
          · exact stopped_afterOrder hst _ _
        have hdis : (u.chan c).state ≠ .disabled := by
          intro hd
          rcases hw.chan c with ho | ⟨ho, _⟩ <;> rw [ho, hfirst] at hd
          · exact hne ((afterOrder_disabled _ _).mp hd)
          · exact hne ((afterOrder_disabled _ _).mp ((afterOrder_disabled _ _).mp hd))
        exact (halted_of_stopped hstopped hdis).symm
    refine answers_taken ht (accept := fun r _ => admitCancelRendezvous r) haccept fun stall irq messages => ?_
    refine ⟨?_, ⟨more ++ others, haltsDone (u.post record) (u.post record), ?_⟩, fun c hc hst => ?_, fun c hc hst hsh => ?_,
      fun hl c hc => ?_, fun hno => ?_, fun c => ?_, ?_, ?_⟩
    · rcases hw.slots i with hs' | hs'
      · exact hs'.trans hfail.slots.1
      · exact hs'
    · show u.posting ++ [record] ++ haltsDone (u.post record) (u.post record) = _
      rw [hothers, hmore]
      simp only [List.append_assoc, List.cons_append, List.nil_append]
      rw [hshown]
      rfl
    · exact (hheld c hc).1 (by rw [afterOrder_resting hst]; exact (afterHeld_spec _ _).1)
    · exact (hheld c hc).2 (stopped_of_shaped hsh .decel false) fun hd => by rcases hst with hst | hst <;> rw [hst] at hd <;> cases hd
    · show u.chan c = _
      rw [(haltOrder_on c .decel false s).chan]
      have hmode : failureMode (withdrawalStatus a.1) = .decel := by
        rw [failureMode_withdrawal, hlatch, hl]
        rfl
      rcases hw.chan c with ho | ⟨ho, _⟩ <;> rw [ho, hchan, if_pos hc]
      exact afterOrder_again _ _ _ (.inr hmode)
    · intro orders
      have hq : u = a.1 := hinert hno
      have hordered : orders.posting = u.posting := by
        rw [hq]
        exact (posting_failSlot (sameHalting_consume s .ctrl) hi' rfl).symm
      have hdone : haltsDone (u.post record) (u.post record) = haltsDone s u :=
        haltsDone_congr (congrArg (·.halts) hu) (congrArg (·.clock) hu) _
      have hposting : u.posting ++ [record] ++ haltsDone (u.post record) (u.post record)
          = s.posting ++ (slotFailure s .cancelled i sl :: more ++ [record] ++ haltsDone s u) := by
        rw [hdone, hq, hmore, hshown, List.append_assoc, List.append_assoc, List.append_assoc]
        rfl
      have hrecord : rendezvousRecords [record] = [] := by
        have hkind : ReqKind.cancelRendezvous.code ≠ ReqKind.rendezvous.code := by decide
        simp [rendezvousRecords, record, State.done, hkind]
      refine ⟨fun c hc => ?_, fun c hc => ?_, ?_, fun j hj => ?_, ?_, ?_, ?_, ?_⟩
      · show u.chan c = _
        rw [hq, hchan, if_pos hc, (haltOrder_on c .decel false s).chan]
      · show u.chan c = _
        rw [hq, hchan, if_neg (by simp [hc])]
      · show u.openList = _
        rw [hq, hfail.frame]
        rfl
      · show u.slots[j] = _
        rw [hq]
        exact hfail.slots.2 j hj
      · show u.xsyncLow = _
        rw [hq, hfail.frame]
        rfl
      · show u.xsyncRun = _
        rw [hq, hfail.frame]
        rfl
      · show u.posting ++ [record] ++ haltsDone (u.post record) (u.post record) = _
        rw [hdone, hordered]
        rfl
      · show rendezvousRecords ((u.posting ++ [record] ++ haltsDone (u.post record) (u.post record)).drop _) = _
        rw [hposting, List.drop_left]
        have hfailure : rendezvousRecords [slotFailure s .cancelled i sl] = [slotFailure s .cancelled i sl] :=
          rendezvousRecords_slotDone s i sl .cancelled _
        refine (rendezvousRecords_append [slotFailure s .cancelled i sl] (more ++ [record] ++ haltsDone s u)).trans ?_
        rw [hfailure]
        simp only [rendezvousRecords_append, hnone, hrecord, rendezvousRecords_haltsDone, List.append_nil]
    · show u.position c = s.position c ∧ (u.chan c).cfg = (s.chan c).cfg
      exact ⟨(hw.keeps c).1.trans (hfail.keeps c).1, (hw.keeps c).2.trans (hfail.keeps c).2⟩
    · exact tookFrom_of_rings (congrArg (·.mainRing) hu) (congrArg (·.ctrlRing) hu)
    · exact frame_withdrawn hu _ _ stall irq messages

end Sys2Proof.Machine
end

section
/-! Every channel halted and every slot failed, as the part leaves RUNNING or ESTOP acts (R85, R86, R158, R161, R164). -/

namespace Sys2Proof.Machine

/-! ### Every slot of a list fails -/

/-- An order of the same mode finds a channel that obeyed one as it left it (R53). -/
theorem Channel.obeyed.afterOrder {ch : Channel} {mode : StopMode} (h : ch.obeyed mode) :
    (ch.afterOrder mode false).obeyed mode := by
  obtain h | h | ⟨h, hm⟩ | ⟨h, hq⟩ := h
  · rw [afterOrder_of_held (.inl h)]
    exact .inl h
  · rw [afterOrder_of_held (.inr h)]
    exact .inr (.inl h)
  · refine .inr (.inr (.inl ⟨?_, hm⟩))
    simp [Channel.afterOrder, h, hm]
  · refine .inl ?_
    simp [Channel.afterOrder, h, (afterHeld_spec _ _).1]

/-- What the failure of every slot of a list changes where the channels have obeyed (R82, R85, R86). -/
structure AllFailed (s t : State) (l : List SlotIx) (status : Status) : Prop where
  member : ∀ d, (∃ i ∈ l, ∃ sl, s.slots[i] = some sl ∧ hasChan sl.members d = true) →
    t.chan d = (s.chan d).afterOrder (failureMode status) false
  other : ∀ d, (¬∃ i ∈ l, ∃ sl, s.slots[i] = some sl ∧ hasChan sl.members d = true) → t.chan d = s.chan d
  slots : ∀ j : SlotIx, t.slots[j] = if j ∈ l then none else s.slots[j]
  posting : t.posting = s.posting ++ l.filterMap fun i => (s.slots[i]).map (slotFailure s status i)
  frame : t = { s with
    chans := t.chans, slots := t.slots, openList := t.openList, xsyncLow := t.xsyncLow, xsyncRun := t.xsyncRun
    posting := t.posting }

/-- A slot that fails among channels that have obeyed hands over its completion alone, and reports nothing. -/
theorem failSlot_obeyed {s : State} {i : SlotIx} {sl : Slot} {status : Status} (h : s.slots[i] = some sl)
    (ho : ∀ c, (s.chan c).obeyed (failureMode status)) :
    (failSlot i status none s).1.posting = s.posting ++ [slotDone s i sl status (sl.reported status none)]
      ∧ (failSlot i status none s).2 = [] := by
  rw [failSlot_eq h]
  exact haltOrders_obeyed (s := (freeSlot i sl s).post (slotDone s i sl status (sl.reported status none)))
    (nodup_slotHalts sl none) (fun c _ => ho c) false

theorem reported_none (sl : Slot) (status : Status) : sl.reported status none = lowestChan sl.members := by
  cases status <;> rfl

/-- A failing slot's completion depends on where the channels stand, the time and the slot alone. -/
theorem slotFailure_congr {s t : State} (hp : ∀ c, t.position c = s.position c) (hn : t.now = s.now) (hk : t.clock = s.clock)
    (status : Status) (i : SlotIx) (sl : Slot) : slotFailure t status i sl = slotFailure s status i sl := by
  simp only [slotFailure, State.done, Cpl.showing, hp, hn, hk]

theorem failSlots_obeyed {l : List SlotIx} (hl : l.Nodup) {status : Status} {s : State}
    (hopen : ∀ i ∈ l, (s.slots[i]).isSome = true) (ho : ∀ c, (s.chan c).obeyed (failureMode status)) :
    AllFailed s (eachAct l (fun i => failSlot i status none) s).1 l status
      ∧ (eachAct l (fun i => failSlot i status none) s).2 = [] := by
  induction l generalizing s with
  | nil =>
    refine ⟨⟨fun _ h => ?_, fun _ _ => rfl, fun _ => (if_neg List.not_mem_nil).symm, (List.append_nil _).symm, rfl⟩, rfl⟩
    obtain ⟨_, hi, _⟩ := h
    cases hi
  | cons i rest ih =>
    obtain ⟨hni, hr⟩ := List.nodup_cons.mp hl
    obtain ⟨sl, hi⟩ := Option.isSome_iff_exists.mp (hopen i List.mem_cons_self)
    obtain ⟨hfail, -⟩ := failSlot_failed hi status none
    obtain ⟨hposting, hquiet⟩ := failSlot_obeyed hi ho
    rw [reported_none] at hposting
    rw [eachAct_cons]
    generalize failSlot i status none s = a at *
    have hslots (j : SlotIx) (hj : j ∈ rest) : a.1.slots[j] = s.slots[j] := hfail.slots.2 j fun he => hni (he ▸ hj)
    have hobeyed (c : Chan) : (a.1.chan c).obeyed (failureMode status) := by
      rw [hfail.chan]
      split
      · exact (ho c).afterOrder
      · exact ho c
    obtain ⟨hall, hsig⟩ := ih (s := a.1) hr (fun j hj => by rw [hslots j hj]; exact hopen j (List.mem_cons_of_mem _ hj)) hobeyed
    have hrest (d : Chan) : (∃ j ∈ rest, ∃ x, a.1.slots[j] = some x ∧ hasChan x.members d = true)
        ↔ ∃ j ∈ rest, ∃ x, s.slots[j] = some x ∧ hasChan x.members d = true :=
      exists_congr fun j => and_congr_right fun hj => by rw [hslots j hj]
    have hfirst (d : Chan) : a.1.chan d = if hasChan sl.members d then (s.chan d).afterOrder (failureMode status) false
        else s.chan d := by
      rw [hfail.chan]
      simp
    refine ⟨⟨fun d hd => ?_, fun d hd => ?_, fun j => ?_, ?_, ?_⟩, by rw [hquiet, hsig]; rfl⟩
    · by_cases hin : ∃ j ∈ rest, ∃ x, s.slots[j] = some x ∧ hasChan x.members d = true
      · refine (hall.member d ((hrest d).mpr hin)).trans ?_
        rw [hfirst]
        split
        · exact afterOrder_again _ _ _ (.inl rfl)
        · rfl
      · refine (hall.other d fun h => hin ((hrest d).mp h)).trans ((hfirst d).trans (if_pos ?_))
        obtain ⟨k, hk, x, hx, hd⟩ := hd
        rcases List.mem_cons.mp hk with rfl | hk
        · rw [hi] at hx
          cases hx
          exact hd
        · exact absurd ⟨k, hk, x, hx, hd⟩ hin
    · refine (hall.other d fun h => hd ?_).trans ((hfirst d).trans (if_neg fun h => hd ⟨i, List.mem_cons_self, sl, hi, h⟩))
      obtain ⟨j, hj, x, hx⟩ := (hrest d).mp h
      exact ⟨j, List.mem_cons_of_mem _ hj, x, hx⟩
    · rw [hall.slots]
      by_cases hj : j ∈ rest
      · rw [if_pos hj, if_pos (List.mem_cons_of_mem _ hj)]
      · rw [if_neg hj]
        by_cases he : j = i
        · rw [he, if_pos List.mem_cons_self]
          exact hfail.slots.1
        · rw [if_neg (by simp [he, hj])]
          exact hfail.slots.2 j he
    · have hfailures : (rest.filterMap fun j => (a.1.slots[j]).map (slotFailure a.1 status j))
          = rest.filterMap fun j => (s.slots[j]).map (slotFailure s status j) := by
        refine List.filterMap_congr fun j hj => ?_
        have hrecord : slotFailure a.1 status j = slotFailure s status j := funext fun x =>
          slotFailure_congr (fun c => (hfail.keeps c).1) (congrArg (·.now) hfail.frame) (congrArg (·.clock) hfail.frame) status j x
        rw [hslots j hj, hrecord]
      rw [hall.posting, hposting, hfailures, List.filterMap_cons, hi, List.append_assoc]
      rfl
    · simp only
      rw [hall.frame, hfail.frame]

/-- Every channel ordered and every open slot failed, with every withdrawal taken (R85, R86). -/
structure AllStopped (s t : State) (m : Mask) (mode : StopMode) (status : Status) : Prop where
  named : ∀ d, hasChan m d = true → t.chan d = (s.chan d).afterOrder mode false
  member : ∀ d, (∃ (i : SlotIx) (sl : Slot), s.slots[i] = some sl ∧ hasChan sl.members d = true) →
    t.chan d = (s.chan d).afterOrder mode false
  other : ∀ d, hasChan m d = false → (¬∃ (i : SlotIx) (sl : Slot), s.slots[i] = some sl ∧ hasChan sl.members d = true) →
    t.chan d = s.chan d
  openList : t.openList = []
  posting : t.posting = (haltMask m mode false s).1.posting ++ slotFailures s status
  frame : t = { s with
    chans := t.chans, slots := t.slots, openList := t.openList, xsyncLow := t.xsyncLow, xsyncRun := t.xsyncRun
    posting := t.posting }

theorem stopAll_stopped {s : State} (hshape : s.queuesShaped) (hslots : s.slotsSound) {m : Mask} {mode : StopMode}
    {status : Status} (hmode : failureMode status = mode) (hm : ∀ c, hasChan m c = false → (s.chan c).obeyed mode) :
    AllStopped s ((haltMask m mode false s).andThen (failAllSlots status)).settle m mode status := by
  let v := (haltMask m mode false s).1
  obtain ⟨hframe, -⟩ : v = { s with chans := v.chans, posting := v.posting } ∧ _ := haltOrders_frame (chansOf m) mode false s
  have hv (d : Chan) : v.chan d = if hasChan m d then (s.chan d).afterOrder mode false else s.chan d :=
    haltMask_chan m mode false s d
  have hvslots : v.slots = s.slots := by rw [hframe]
  have hvopen : v.openList = s.openList := by rw [hframe]
  have hvsound : v.slotsSound := (SettleStep.haltMask m mode false s).slots hslots
  have hobeyed (c : Chan) : (v.chan c).obeyed (failureMode status) := by
    rw [hmode, hv]
    cases hc : hasChan m c with
    | true => exact obeyed_afterOrder (hshape c) mode false
    | false => exact hm c hc
  obtain ⟨hall, hsig⟩ := failSlots_obeyed hvsound.1 (fun i hi => (hvsound.2.1 i).mp hi) hobeyed
  have hempty : (failAllSlots status v).1.openList = [] := failAllSlots_openList hvsound status
  have hfree (i : SlotIx) : (failAllSlots status v).1.slots[i] = none := by
    refine (hall.slots i).trans ?_
    by_cases hi : i ∈ v.openList
    · rw [if_pos hi]
    · rw [if_neg hi]
      have := mt (hvsound.2.1 i).mpr hi
      simpa using this
  have hsettle : ((haltMask m mode false s).andThen (failAllSlots status)).settle = (failAllSlots status v).1 := by
    refine settle_inert (a := (haltMask m mode false s).andThen (failAllSlots status)) fun sig hin => ?_
    have hin' : sig ∈ (haltMask m mode false s).2 := by
      have hsent : ((haltMask m mode false s).andThen (failAllSlots status)).2
          = (haltMask m mode false s).2 ++ (failAllSlots status v).2 := rfl
      rw [hsent, show (failAllSlots status v).2 = [] from hsig, List.append_nil] at hin
      exact hin
    obtain ⟨c, i, rfl⟩ := withdrawals_haltOrders (nodup_chansOf m) mode false s sig hin'
    exact takeWithdrawal_inert fun sl hi => by
      rw [show ((haltMask m mode false s).andThen (failAllSlots status)).1.slots[i] = none from hfree i] at hi
      cases hi
  rw [hsettle]
  change AllFailed v (failAllSlots status v).1 v.openList status at hall
  generalize (failAllSlots status v).1 = u at *
  have hmember (d : Chan) : (∃ i ∈ v.openList, ∃ sl, v.slots[i] = some sl ∧ hasChan sl.members d = true)
      ↔ ∃ (i : SlotIx) (sl : Slot), s.slots[i] = some sl ∧ hasChan sl.members d = true := by
    rw [hvslots]
    constructor
    · rintro ⟨i, _, sl, hi, hd⟩
      exact ⟨i, sl, hi, hd⟩
    · rintro ⟨i, sl, hi, hd⟩
      exact ⟨i, (hvsound.2.1 i).mpr (by rw [hvslots, hi]; rfl), sl, hi, hd⟩
  have hagain (d : Chan) (hd : v.chan d = (s.chan d).afterOrder mode false) : u.chan d = (s.chan d).afterOrder mode false := by
    by_cases hin : ∃ i ∈ v.openList, ∃ sl, v.slots[i] = some sl ∧ hasChan sl.members d = true
    · rw [hall.member d hin, hd, hmode]
      exact afterOrder_again _ _ _ (.inl rfl)
    · exact (hall.other d hin).trans hd
  refine ⟨fun d hd => hagain d ((hv d).trans (if_pos hd)), fun d hd => ?_, fun d hd hno => ?_, hempty, ?_, ?_⟩
  · cases hn : hasChan m d with
    | true => exact hagain d ((hv d).trans (if_pos hn))
    | false => rw [hall.member d ((hmember d).mpr hd), hv, hn, hmode]; rfl
  · rw [hall.other d fun h => hno ((hmember d).mp h), hv, hd]; rfl
  · rw [hall.posting, hvopen, hvslots]
    have hpos (c : Chan) : v.position c = s.position c := by
      rw [State.position, hv]
      split
      · exact (afterOrder_keeps _ mode false).2.2
      · rfl
    have hrecord (i : SlotIx) : slotFailure v status i = slotFailure s status i := funext fun x =>
      slotFailure_congr hpos (congrArg (·.now) hframe) (congrArg (·.clock) hframe) status i x
    simp only [slotFailures, hrecord]
    rfl
  · rw [hall.frame, hframe]

end Sys2Proof.Machine
end

section
/-! The part leaves RUNNING: the drain that the host orders, and the failure of a completion write (O40, O57). -/

namespace Sys2Proof.Machine

/-! ### The end of a command that leaves the part out of RUNNING (R128, R147) -/

theorem stall_finish {s : State} (h : s.part ≠ .running) : (finish s).stall = .none := by
  have hstall (u : State) (hu : u.part ≠ .running) : (rejudge u).stall = .none := by
    unfold rejudge
    split
    · rfl
    · rw [if_pos hu]
  show (rejudge (sweepHalts s)).stall = .none
  rw [sweepHalts_eq]
  exact hstall _ h

/-- What a command answers, with the interrupt request that its causes give (R147). -/
theorem answers_request {s u : State} {f : State → State} (h : s.inReset = false) (hf : f s = u) {p : State → Prop}
    (hp : ∀ stall messages, p { u with
      halts := haltsLeft u u, posting := u.posting ++ haltsDone u u, stall := stall
      irq := u.intCause != 0 && u.intEnable, messages := messages }) : Answers (outcome s f) p := by
  subst hf
  refine ⟨_, outcome_awake h f, ?_⟩
  rw [finish_eq, irq_finish]
  exact hp _ _

/-- What a command answers that leaves the part out of RUNNING: no record is held back (R127). -/
theorem answers_idlePart {s u : State} {f : State → State} (h : s.inReset = false) (hf : f s = u) (hu : u.part ≠ .running)
    {p : State → Prop}
    (hp : ∀ messages, p { u with
      halts := haltsLeft u u, posting := u.posting ++ haltsDone u u, stall := .none
      irq := u.intCause != 0 && u.intEnable, messages := messages }) : Answers (outcome s f) p := by
  subst hf
  refine ⟨_, outcome_awake h f, ?_⟩
  rw [finish_eq, irq_finish, stall_finish hu]
  exact hp _

/-! ### Orders to every channel -/

/-- Orders to channels already HELD or DISABLED may be left out (R53). -/
theorem haltOrders_filter {l : List Chan} (hl : l.Nodup) {p : Chan → Bool} {s : State}
    (h : ∀ c ∈ l, p c = false → (s.chan c).state = .held ∨ (s.chan c).state = .disabled) (mode : StopMode) (byWatch : Bool) :
    eachAct (l.filter p) (fun c => haltOrder c mode byWatch) s = eachAct l (fun c => haltOrder c mode byWatch) s := by
  induction l generalizing s with
  | nil => rfl
  | cons c rest ih =>
    obtain ⟨hc, hr⟩ := List.nodup_cons.mp hl
    have hrest (d : Chan) (hd : d ∈ rest) : (haltOrder c mode byWatch s).1.chan d = s.chan d :=
      (haltOrder_on c mode byWatch s).others d fun he => hc (he ▸ hd)
    have htail := ih (s := (haltOrder c mode byWatch s).1) hr fun d hd hp => by
      rw [hrest d hd]
      exact h d (List.mem_cons_of_mem _ hd) hp
    cases hp : p c with
    | true => rw [List.filter_cons_of_pos hp, eachAct_cons, eachAct_cons, htail]
    | false =>
      have hnone : haltOrder c mode byWatch s = (s, []) := haltOrder_untouched (h c List.mem_cons_self hp).symm mode byWatch
      rw [hnone] at htail
      rw [List.filter_cons_of_neg (by simp [hp]), eachAct_cons, hnone, htail]
      rfl

/-! ### What stopping everything changes, against the state before the command -/

theorem rendezvousRecords_slotFailures (s : State) (status : Status) :
    rendezvousRecords (slotFailures s status) = slotFailures s status := by
  refine List.filter_eq_self.mpr fun r hr => ?_
  obtain ⟨i, _, hi⟩ := List.mem_filterMap.mp hr
  obtain ⟨sl, _, rfl⟩ := Option.map_eq_some_iff.mp hi
  rfl

theorem notices_slotFailures (s : State) (status : Status) : (slotFailures s status).countP (·.notice) = 0 := by
  refine List.countP_eq_zero.mpr fun r hr => ?_
  obtain ⟨i, _, hi⟩ := List.mem_filterMap.mp hr
  obtain ⟨sl, _, rfl⟩ := Option.map_eq_some_iff.mp hi
  exact Bool.false_ne_true

theorem AllStopped.keeps {s t : State} {m : Mask} {mode : StopMode} {status : Status} (h : AllStopped s t m mode status)
    (d : Chan) : t.position d = s.position d ∧ (t.chan d).cfg = (s.chan d).cfg := by
  have hordered : t.chan d = s.chan d ∨ t.chan d = (s.chan d).afterOrder mode false := by
    cases hn : hasChan m d with
    | true => exact .inr (h.named d hn)
    | false =>
      by_cases hm : ∃ (i : SlotIx) (sl : Slot), s.slots[i] = some sl ∧ hasChan sl.members d = true
      · exact .inr (h.member d hm)
      · exact .inl (h.other d hn hm)
  rw [State.position]
  rcases hordered with ho | ho <;> rw [ho]
  · exact ⟨rfl, rfl⟩
  · exact ⟨(afterOrder_keeps _ mode false).2.2, cfg_afterOrder _ mode false⟩

/-- A channel that is HELD or DISABLED stays as it was. -/
theorem AllStopped.untouched {s t : State} {m : Mask} {mode : StopMode} {status : Status} (h : AllStopped s t m mode status)
    {d : Chan} (hd : (s.chan d).state = .held ∨ (s.chan d).state = .disabled) : t.chan d = s.chan d := by
  have hsame : (s.chan d).afterOrder mode false = s.chan d := afterOrder_of_held hd mode false
  cases hn : hasChan m d with
  | true => exact (h.named d hn).trans hsame
  | false =>
    by_cases hm : ∃ (i : SlotIx) (sl : Slot), s.slots[i] = some sl ∧ hasChan sl.members d = true
    · exact (h.member d hm).trans hsame
    · exact h.other d hn hm

/-- What everything stopped hands over, in the words of the statements. -/
theorem AllStopped.posted {s v t : State} {m : Mask} {mode : StopMode} {status : Status} (h : AllStopped v t m mode status)
    (hv : SameHalting s v) (hp : v.posting = s.posting) (hslots : v.slots = s.slots) (hopen : v.openList = s.openList) :
    t.posting = (eachAct (chansOf m) (fun c => haltOrder c mode false) s).1.posting ++ slotFailures s status
      ∧ ∃ more, t.posting = s.posting ++ more ∧ rendezvousRecords more = slotFailures s status
        ∧ more.countP (·.notice) = 0 := by
  obtain ⟨-, records, hs, ht⟩ := haltOrders_same hv (chansOf m) mode false
  obtain ⟨⟨records', hrecords, hnone⟩, -⟩ := haltOrders_reports (nodup_chansOf m) mode false s
  have hfailures : slotFailures v status = slotFailures s status := by
    have hrecord (i : SlotIx) : slotFailure v status i = slotFailure s status i := funext fun x =>
      slotFailure_congr hv.position hv.now hv.clock status i x
    simp only [slotFailures, hslots, hopen, hrecord]
  have hall : t.posting = (eachAct (chansOf m) (fun c => haltOrder c mode false) s).1.posting ++ slotFailures s status := by
    rw [h.posting, hfailures, hs, ← hp]
    exact congrArg (· ++ _) ht
  refine ⟨hall, records' ++ slotFailures s status, ?_, ?_, ?_⟩
  · rw [hall, hrecords, List.append_assoc]
  · rw [rendezvousRecords_append, hnone.rendezvous, rendezvousRecords_slotFailures]
    rfl
  · rw [List.countP_append, hnone.notices, notices_slotFailures]

/-! ### The failure of a completion write (R148, R161) -/

/-- Settles O57: the part enters FAILED, every channel is halted and every slot fails. -/
theorem completionWriteFaultFailsThePart : Obligations.CompletionWriteFaultFailsThePart := by
  intro s h hs hshaped hslots hwriting hpart orders
  let v : State := stopIntake { ({ s with writing := none }.raise causeFault) with part := .failed, faultCode := .completionWrite }
  let u : State := ((haltMask (failedMask s) .decel false v).andThen (failAllSlots .cancelled)).settle
  have hf : failWrite .live s = u := by
    obtain ⟨w, hw⟩ := Option.ne_none_iff_exists'.mp hwriting
    simp only [failWrite, hw]
    exact if_pos (writes_iff.mpr hpart)
  have hnamed (c : Chan) : hasChan (failedMask s) c = true ↔ ¬((s.chan c).state = .held ∨ (s.chan c).state = .disabled) := by
    simp [failedMask]
  have hstop : AllStopped v u (failedMask s) .decel .cancelled := by
    refine stopAll_stopped (s := v) hshaped (slotsSound_congr rfl hslots) rfl fun c hc => ?_
    have := not_not.mp (mt (hnamed c).mpr (by simp [hc]))
    rcases this with hd | hd
    · exact .inl hd
    · exact .inr (.inl hd)
  have hsame : SameHalting s v := ⟨fun _ => rfl, rfl, rfl, rfl⟩
  obtain ⟨hposting, more, hmore, hrecords, -⟩ := hstop.posted hsame rfl rfl rfl
  have hframe := hstop.frame
  have hchan (c : Chan) : u.chan c = (s.chan c).afterOrder .decel false := by
    by_cases hc : (s.chan c).state = .held ∨ (s.chan c).state = .disabled
    · rw [hstop.untouched hc, afterOrder_of_held hc]
      rfl
    · exact hstop.named c ((hnamed c).mpr hc)
  have horders : orders.posting = (eachAct (chansOf (failedMask s)) (fun c => haltOrder c .decel false) s).1.posting := by
    have hfilter := haltOrders_filter (l := allChans) (by decide) (p := hasChan (failedMask s)) (s := s) (fun c _ hc =>
      not_not.mp (mt (hnamed c).mpr (by simp [hc]))) .decel false
    exact congrArg (·.1.posting) hfilter.symm
  have hdone : haltsDone u u = haltsDone s u := haltsDone_congr (congrArg (·.halts) hframe) (congrArg (·.clock) hframe) u
  have hleft : haltsLeft u u = haltsLeft s u := haltsLeft_congr (congrArg (·.halts) hframe) u
  have hupart : u.part ≠ .running := by
    rw [hframe]
    exact PartState.noConfusion
  refine answers_idlePart (f := failWrite .live) h hf hupart fun messages => ?_
  rw [hdone, hleft]
  refine ⟨congrArg (·.part) hframe, congrArg (·.faultCode) hframe, congrArg (·.intCause) hframe, congrArg (·.writing) hframe,
    congrArg (·.mainRing) hframe, congrArg (·.ctrlRing) hframe, rfl, hstop.openList, ⟨more ++ haltsDone s u, ?_, ?_⟩,
    fun c hc => hstop.untouched hc, fun c hc => ?_, fun c hc => ?_, fun c => ?_, ?_, rfl, fun c => hstop.keeps c, ?_⟩
  · exact (congrArg (· ++ haltsDone s u) hmore).trans (List.append_assoc ..)
  · rw [rendezvousRecords_append, hrecords, rendezvousRecords_haltsDone, List.append_nil]
  · show (u.chan c).state = .held
    rw [hchan, afterOrder_resting hc]
    exact (afterHeld_spec _ _).1
  · show (u.chan c).state = .stopping ∨ (u.chan c).state = .held
    rw [hchan]
    refine (halted_of_stopped (stopped_of_shaped (hshaped c) .decel false) fun hd => ?_).symm
    have := (afterOrder_disabled _ _).mp hd
    rcases hc with hc | hc <;> rw [hc] at this <;> cases this
  · exact (hchan c).trans (haltOrder_on c .decel false s).chan.symm
  · show u.posting ++ haltsDone s u = _
    rw [hposting, horders]
    rfl
  · clear_value u
    rw [hframe]
    rfl

/-! ### Writes of CTRL (R147, R152, R153, R158) -/

/-- A write of CTRL without SOFT_RESET (R152). -/
theorem writeWindow_ctrl {v : Word} (h : v.getLsbD 1 = false) (s : State) :
    writeWindow 0 15 v s = writeEnable (v.getLsbD 0) { s with intEnable := v.getLsbD 2 } := by
  have hctrl : writeWindow 0 15 v s = writeCtrl v s := rfl
  rw [hctrl, writeCtrl, h]
  rfl

/-- The part enters STARTING, or fails its setup at once (R152, R153, R155). -/
theorem enterStarting_eq (s : State) : enterStarting s =
    if setupAddress s % 64 = 0 then { s with part := .starting, faultCode := .none, setupRead := some (setupAddress s) }
    else { s with part := .off, setupRead := none, faultCode := .setupAddress, intCause := s.intCause ||| causeSetup } := by
  unfold enterStarting
  split <;> rfl

/-- A write of ENABLE that is no order to drain acts on the part control alone (R152). -/
theorem writeEnable_frame {s : State} {on : Bool} (h : ¬(s.part = .running ∧ on = false)) : writeEnable on s = { s with
    part := (writeEnable on s).part, setupRead := (writeEnable on s).setupRead, faultCode := (writeEnable on s).faultCode
    intCause := (writeEnable on s).intCause } := by
  unfold writeEnable
  split
  · rw [enterStarting_eq]
    split <;> rfl
  · rfl
  · exact absurd ⟨by assumption, rfl⟩ h
  all_goals rfl

/-- The channels that a drain halts are RUNNING, STOPPING, DWELLING or WAITING (R158). -/
theorem hasChan_drainMask (s : State) (c : Chan) :
    hasChan (drainMask s) c = true ↔ (s.chan c).state ∈ [ChanState.running, .stopping, .dwelling, .waiting] := by
  simp only [drainMask, hasChan_maskOf]
  cases (s.chan c).state <;> simp

/-- Settled HALTs stay as they are where the channels do (R60). -/
theorem halts_settled {s u : State} (hs : s.haltsSettled) (hh : u.halts = s.halts) (hk : u.clock = s.clock)
    (hc : ∀ c, u.chan c = s.chan c) : haltsLeft u u = s.halts ∧ haltsDone u u = [] := by
  rw [haltsLeft_congr hh, haltsDone_congr hh hk]
  exact halts_unchanged hs fun c h => by rwa [hc]

/-- Settles O40: a write of CTRL sets INT_ENABLE and starts, stops or drains the part by its state. -/
theorem controlWritesActByPartState : Obligations.ControlWritesActByPartState := by
  intro s v c hc h hbit hs hshaped hslots on address drained orders member
  let e : State := { s with intEnable := v.getLsbD 2 }
  have hexec : exec c s = outcome s (writeWindow 0 15 v) := by
    rcases hc with rfl | rfl | rfl <;> rfl
  have hwrite : writeWindow 0 15 v s = writeEnable on e := writeWindow_ctrl hbit s
  rw [hexec]
  by_cases hdrain : s.part = .running ∧ on = false
  · obtain ⟨hpart, hon⟩ := hdrain
    let w : State := stopIntake { e with part := .draining }
    let u : State := ((haltMask (drainMask s) .decel false w).andThen (failAllSlots .cancelled)).settle
    have hf : writeWindow 0 15 v s = u := by
      rw [hwrite, hon]
      unfold writeEnable
      rw [show e.part = .running from hpart]
      rfl
    have hstop : AllStopped w u (drainMask s) .decel .cancelled := by
      refine stopAll_stopped (s := w) hshaped (slotsSound_congr rfl hslots) rfl fun c hc => ?_
      show (s.chan c).obeyed .decel
      have hno : (s.chan c).state ∉ [ChanState.running, .stopping, .dwelling, .waiting] :=
        mt (hasChan_drainMask s c).mpr (by simp [hc])
      cases hst : (s.chan c).state with
      | disabled => exact .inr (.inl hst)
      | held => exact .inl hst
      | idle => exact .inr (.inr (.inr ⟨hst, queue_idle (hshaped c) hst⟩))
      | running => simp [hst] at hno
      | stopping => simp [hst] at hno
      | dwelling => simp [hst] at hno
      | waiting => simp [hst] at hno
    have hsame : SameHalting s w := ⟨fun _ => rfl, rfl, rfl, rfl⟩
    obtain ⟨hposting, more, hmore, hrecords, -⟩ := hstop.posted hsame rfl rfl rfl
    have hframe := hstop.frame
    have hmask : drainMask s = drained := mask_ext fun d => by
      rw [Bool.eq_iff_iff, hasChan_drainMask]
      simp [drained]
    have hdone : haltsDone u u = haltsDone s u := haltsDone_congr (congrArg (·.halts) hframe) (congrArg (·.clock) hframe) u
    have hleft : haltsLeft u u = haltsLeft s u := haltsLeft_congr (congrArg (·.halts) hframe) u
    have hupart : u.part = .draining := congrArg (·.part) hframe
    have horder (d : Chan) (hd : hasChan drained d = true) : u.chan d = (s.chan d).afterOrder .decel false :=
      hstop.named d (by rw [hmask]; exact hd)
    refine answers_idlePart h hf (by rw [hupart]; exact PartState.noConfusion) fun messages => ?_
    rw [hdone, hleft]
    have hno (p : PartState) (hp : p ≠ .running) (x : Prop) : s.part = p → x := fun hs => absurd (hs.symm.trans hpart) hp
    refine ⟨congrArg (·.intEnable) hframe, rfl, hno _ PartState.noConfusion _, hno _ PartState.noConfusion _,
      hno _ PartState.noConfusion _, fun hkeep => ?_, fun hne => absurd ⟨hpart, hon⟩ hne, fun _ _ => ?_⟩
    · rcases hkeep with ⟨hp, _⟩ | ⟨_, ho⟩ | hp | hp
      · rw [hpart] at hp; cases hp
      · rw [hon] at ho; cases ho
      · rw [hpart] at hp; cases hp
      · rw [hpart] at hp; cases hp
    · refine ⟨hupart, congrArg (·.mainRing) hframe, congrArg (·.ctrlRing) hframe, rfl, hstop.openList,
        ⟨more ++ haltsDone s u, ?_, ?_⟩, fun d hd => ?_, fun d hd => ?_, fun d hd => hstop.untouched hd, fun d hd => ?_,
        fun d hd hm => ?_, fun d hd hm => ?_, ?_, rfl, fun d => hstop.keeps d, ?_⟩
      · exact (congrArg (· ++ haltsDone s u) hmore).trans (List.append_assoc ..)
      · rw [rendezvousRecords_append, hrecords, rendezvousRecords_haltsDone, List.append_nil]
      · show (u.chan d).state = .stopping ∨ (u.chan d).state = .held
        have hin : hasChan drained d = true := by
          rw [← hmask, hasChan_drainMask]
          rcases hd with hd | hd <;> rw [hd] <;> decide
        rw [horder d hin]
        refine (halted_of_stopped (stopped_of_shaped (hshaped d) .decel false) fun hdis => ?_).symm
        have := (afterOrder_disabled _ _).mp hdis
        rcases hd with hd | hd <;> rw [hd] at this <;> cases this
      · show (u.chan d).state = .held
        have hin : hasChan drained d = true := by
          rw [← hmask, hasChan_drainMask]
          rcases hd with hd | hd <;> rw [hd] <;> decide
        rw [horder d hin, afterOrder_resting (by rcases hd with hd | hd <;> rw [hd] <;> decide)]
        exact (afterHeld_spec _ _).1
      · exact (horder d hd).trans (haltOrder_on d .decel false s).chan.symm
      · exact (hstop.member d hm).trans (haltOrder_on d .decel false s).chan.symm
      · exact hstop.other d (by
          rw [Bool.eq_false_iff, Ne, hasChan_drainMask]
          simp [hd]) hm
      · show u.posting ++ haltsDone s u = _
        rw [hposting, hmask]
        rfl
      · clear_value u
        rw [hframe]
        rfl
  · let u : State := writeEnable on e
    have hframe : u = _ := writeEnable_frame (s := e) (on := on) hdrain
    obtain ⟨hleft, hdone⟩ := halts_settled (u := u) hs (congrArg (·.halts) hframe) (congrArg (·.clock) hframe)
      fun c => congrArg (·.chan c) hframe
    refine answers_request h hwrite fun stall messages => ?_
    rw [show haltsLeft (writeEnable on e) (writeEnable on e) = s.halts from hleft,
      show haltsDone (writeEnable on e) (writeEnable on e) = [] from hdone, List.append_nil]
    change u = { e with
      part := u.part, setupRead := u.setupRead, faultCode := u.faultCode, intCause := u.intCause } at hframe
    have haddress : setupAddress e = address := by norm_num [setupAddress, address, e]
    have hoff (hp : s.part = .off) (ho : on = true) : u = enterStarting e := by
      simp only [u, writeEnable, show e.part = .off from hp, ho]
    refine ⟨congrArg (·.intEnable) hframe, rfl, fun hp ho ha => ?_, fun hp ho ha => ?_, fun hp ho => ?_, fun hkeep => ?_,
      fun _ => ?_, fun hp ho => absurd ⟨hp, ho⟩ hdrain⟩
    · have hu : u = _ := (hoff hp ho).trans ((enterStarting_eq e).trans (if_pos ((congrArg (· % 64) haddress).trans ha)))
      exact ⟨congrArg (·.part) hu, (congrArg (·.setupRead) hu).trans (congrArg some haddress), congrArg (·.faultCode) hu,
        congrArg (·.intCause) hu⟩
    · have hne : ¬setupAddress e % 64 = 0 := fun he => ha ((congrArg (· % 64) haddress).symm.trans he)
      have hu : u = _ := (hoff hp ho).trans ((enterStarting_eq e).trans (if_neg hne))
      exact ⟨congrArg (·.part) hu, congrArg (·.setupRead) hu, congrArg (·.faultCode) hu, congrArg (·.intCause) hu⟩
    · have hu : u = { e with part := .off, setupRead := none } := by
        simp only [u, writeEnable, show e.part = .starting from hp, ho]
      exact ⟨congrArg (·.part) hu, congrArg (·.setupRead) hu, congrArg (·.faultCode) hu, congrArg (·.intCause) hu⟩
    · have hu : u = e := by
        rcases hkeep with ⟨hp, ho⟩ | ⟨hp | hp, ho⟩ | hp | hp
        · simp only [u, writeEnable, show e.part = .off from hp, ho]
        · simp only [u, writeEnable, show e.part = .starting from hp, ho]
        · simp only [u, writeEnable, show e.part = .running from hp, ho]
        · simp only [u, writeEnable, show e.part = .draining from hp]
        · simp only [u, writeEnable, show e.part = .failed from hp]
      exact ⟨congrArg (·.part) hu, congrArg (·.setupRead) hu, congrArg (·.faultCode) hu, congrArg (·.intCause) hu⟩
    · rw [writeEnable_frame (s := e) (on := on) hdrain]

end Sys2Proof.Machine
end

section
/-! ESTOP: what the qualified input's changes do, by the state of the part (O43). -/

namespace Sys2Proof.Machine

/-! ### An ABRUPT order (R45, R53) -/

theorem queue_held {ch : Channel} (hs : ch.shaped = true) (h : ch.state = .held) : ch.queue = [] := by
  simp only [Channel.shaped, h] at hs
  cases hq : ch.queue with
  | nil => rfl
  | cons e rest =>
    rw [hq] at hs
    cases hs

/-- A STOPPING channel has no MARKER in its queue, so an order to it withdraws nothing (R51). -/
theorem marker_stopping {ch : Channel} (hs : ch.shaped = true) (h : ch.state = .stopping) (i : SlotIx) :
    Entry.marker i ∉ ch.queue := by
  simp only [Channel.shaped, h] at hs
  intro hin
  split at hs <;> simp_all

theorem rendezvousRecords_notice {r : Cpl} (h : r.notice = true) : rendezvousRecords [r] = [] := by
  simp [rendezvousRecords, h]

/-! ### The assertion that acts in RUNNING and DRAINING (R164) -/

/-- The notice of an assertion of ESTOP (R143, R164). -/
def State.estopRecord (s : State) : Cpl :=
  s.notice noticeEstop 0 0 0 (auxMask (enabledMask s)) (auxMask (safePatternOf s))

/-- Every channel held and every slot aborted, before the AUX latch and the notice (R164). -/
def State.estopStopped (s : State) : State :=
  ((haltMask (enabledMask s) .abrupt false { s with estopLatch := true }).andThen (failAllSlots .aborted)).settle

theorem hasChan_enabledMask (s : State) (c : Chan) : hasChan (enabledMask s) c = true ↔ (s.chan c).state ≠ .disabled := by
  simp [enabledMask]

theorem estopStopped_stopped {s : State} (hshaped : s.queuesShaped) (hslots : s.slotsSound) :
    AllStopped { s with estopLatch := true } s.estopStopped (enabledMask s) .abrupt .aborted := by
  refine stopAll_stopped (s := { s with estopLatch := true }) hshaped (slotsSound_congr rfl hslots) rfl fun c hc => .inr (.inl ?_)
  exact not_not.mp (mt (hasChan_enabledMask s c).mpr (by simp [hc]))

theorem chan_estopStopped {s : State} (hshaped : s.queuesShaped) (hslots : s.slotsSound) (c : Chan) :
    s.estopStopped.chan c = (s.chan c).afterOrder .abrupt false := by
  have hstop := estopStopped_stopped hshaped hslots
  by_cases hc : (s.chan c).state = .disabled
  · rw [hstop.untouched (.inr hc), afterOrder_of_held (.inr hc)]
    rfl
  · exact hstop.named c ((hasChan_enabledMask s c).mpr hc)

/-- A notice handed over, or dropped and counted (R140). -/
theorem postNotice_eq (s : State) (r : Cpl) : s.postNotice r = { s with
    posting := s.posting ++ if s.notices < 16 then [{ r with lost := BitVec.ofNat 8 s.lost }] else []
    lost := if s.notices < 16 then 0 else min 255 (s.lost + 1) } := by
  by_cases h : s.notices < 16
  · rw [postNotice_room h, if_pos h, if_pos h]
  · rw [postNotice_full (Nat.le_of_not_lt h), if_neg h, if_neg h, List.append_nil]

/-- The assertion in one equation: the notice is handed over, or counted as lost (R140, R164). -/
theorem assertEstop_eq {s : State} (hshaped : s.queuesShaped) (hslots : s.slotsSound) :
    assertEstop s = { s.estopStopped with
      aux := safePatternOf s
      posting := s.estopStopped.posting
        ++ if s.notices < 16 then [{ s.estopRecord with lost := BitVec.ofNat 8 s.lost }] else []
      lost := if s.notices < 16 then 0 else min 255 (s.lost + 1) } := by
  have hstop := estopStopped_stopped hshaped hslots
  obtain ⟨-, more, hmore, -, hnone⟩ := hstop.posted (s := s) ⟨fun _ => rfl, rfl, rfl, rfl⟩ rfl rfl rfl
  let u : State := { s.estopStopped with aux := safePatternOf s }
  have hnotices : u.notices = s.notices := by
    show s.estopStopped.posting.countP (·.notice) = s.posting.countP (·.notice)
    rw [hmore, List.countP_append, hnone, Nat.add_zero]
  have hclock : u.clock = s.clock := congrArg (·.clock) hstop.frame
  have hlost : u.lost = s.lost := congrArg (·.lost) hstop.frame
  have hrecord : u.notice noticeEstop 0 0 0 (auxMask (enabledMask s)) (auxMask (safePatternOf s)) = s.estopRecord := by
    simp only [State.notice, State.estopRecord, hclock]
  have hassert : assertEstop s = u.postNotice s.estopRecord := by
    rw [← hrecord]
    rfl
  rw [hassert, postNotice_eq, hnotices, hlost]

/-! ### The assertion in FAILED (R165) -/

/-- Every STOPPING channel stops at the end of its pulse. -/
theorem assertEstopFailed_eq {s : State} (hshaped : s.queuesShaped) :
    assertEstopFailed s = (haltMask (maskOf fun c => (s.chan c).state == .stopping) .abrupt false s).1 := by
  have hnone : (haltMask (maskOf fun c => (s.chan c).state == .stopping) .abrupt false s).2 = [] := by
    refine List.eq_nil_iff_forall_not_mem.mpr fun sig hin => ?_
    obtain ⟨c, hc, i, _, hi⟩ := (haltOrders_reports (nodup_chansOf _) .abrupt false s).2 sig hin
    have hst : (s.chan c).state = .stopping := by simpa using hc
    exact marker_stopping (hshaped c) hst i hi
  unfold assertEstopFailed
  generalize haltMask (maskOf fun c => (s.chan c).state == .stopping) .abrupt false s = a at *
  obtain ⟨t, l⟩ := a
  obtain rfl : l = [] := hnone
  rfl

/-- Settles O43: a change of the qualified ESTOP input, and what an assertion does by the state of the part. -/
theorem estopChangesAct : Obligations.EstopChangesAct := by
  intro s h hs hshaped hslots comes changed quiet enabled safe record told orders
  have hmet : s.estopCompletes = true ↔ comes := Iff.rfl
  have hasserted (hc : comes) (hq : s.estop.qualified = false) :
      (if s.estopCompletes && !s.estop.qualified then takeAssertion (changeEstop s) else s)
        = takeAssertion { s with estop := changed true } := by
    have hchange : changeEstop s = { s with estop := changed true } := by
      simp only [changeEstop, Qual.change, hq]
      rfl
    rw [if_pos (by simp [hmet.mpr hc, hq]), hchange]
  refine ⟨fun hno => ?_, fun hno => ?_, fun hc hq => ?_, fun hc hq hp => ?_, fun hc hq hp hl => ?_, fun hc hq hp => ?_⟩
  · refine answers_unmet (b := s.estopCompletes && s.estop.qualified) h hs ?_
    rcases hno with hno | hno
    · simp [Bool.eq_false_iff.mpr (mt hmet.mp hno)]
    · simp [hno]
  · refine answers_unmet (b := s.estopCompletes && !s.estop.qualified) (f := fun s => takeAssertion (changeEstop s)) h hs ?_
    rcases hno with hno | hno
    · simp [Bool.eq_false_iff.mpr (mt hmet.mp hno)]
    · simp [hno]
  · have hf : (if s.estopCompletes && s.estop.qualified then changeEstop s else s) = { s with estop := changed false } := by
      rw [if_pos (by simp [hmet.mpr hc, hq])]
      simp only [changeEstop, Qual.change, hq]
      rfl
    exact answers_state (f := fun s => if s.estopCompletes && s.estop.qualified then changeEstop s else s) h hf hs
      fun _ _ _ => rfl
  · have hf : takeAssertion { s with estop := changed true } = { s with estop := changed true } := by
      unfold takeAssertion
      rcases hp with hp | hp | ⟨hl, hp⟩
      · rw [show ({ s with estop := changed true } : State).part = .off from hp]
      · rw [show ({ s with estop := changed true } : State).part = .starting from hp]
      · rw [show ({ s with estop := changed true } : State).part = s.part from rfl]
        cases hpart : s.part with
        | failed => exact absurd hpart hp
        | off => rfl
        | starting => rfl
        | running => exact if_pos hl
        | draining => exact if_pos hl
    exact answers_state (f := fun s => if s.estopCompletes && !s.estop.qualified then takeAssertion (changeEstop s) else s) h
      ((hasserted hc hq).trans hf) hs fun _ _ _ => rfl
  · let v : State := { s with estop := changed true }
    have hstop := estopStopped_stopped (s := v) hshaped hslots
    have hchan (c : Chan) : v.estopStopped.chan c = (s.chan c).afterOrder .abrupt false :=
      chan_estopStopped (s := v) hshaped hslots c
    obtain ⟨hposting, more, hmore, hrecords, -⟩ := hstop.posted (s := s) ⟨fun _ => rfl, rfl, rfl, rfl⟩ rfl rfl rfl
    have hframe := hstop.frame
    have hf : takeAssertion v = assertEstop v := by
      unfold takeAssertion
      rcases hp with hp | hp
      · rw [show v.part = .running from hp]
        exact if_neg (by simp [v, hl])
      · rw [show v.part = .draining from hp]
        exact if_neg (by simp [v, hl])
    have htold : (if v.notices < 16 then [{ v.estopRecord with lost := BitVec.ofNat 8 v.lost }] else []) = told := rfl
    rw [assertEstop_eq (s := v) hshaped hslots, htold] at hf
    generalize v.estopStopped = u at *
    have htoldquiet : rendezvousRecords told = [] := by
      simp only [told]
      split
      · exact rendezvousRecords_notice rfl
      · rfl
    refine answers_effect (f := fun s => if s.estopCompletes && !s.estop.qualified then takeAssertion (changeEstop s) else s) h
      fun stall irq messages => ?_
    rw [hasserted hc hq, hf]
    have hheld (c : Chan) (hd : (s.chan c).state ≠ .disabled) : (u.chan c).state = .held ∧ (u.chan c).queue = [] := by
      rw [hchan]
      have hst := afterOrder_abrupt hd false
      exact ⟨hst, queue_held (shaped_afterOrder (hshaped c) .abrupt false) hst⟩
    let z : State := { u with
      aux := safe, posting := u.posting ++ told, lost := if s.notices < 16 then 0 else min 255 (s.lost + 1) }
    have hdone : haltsDone z z = haltsDone s z := haltsDone_congr (congrArg (·.halts) hframe) (congrArg (·.clock) hframe) z
    have hleft : haltsLeft z z = haltsLeft s z := haltsLeft_congr (congrArg (·.halts) hframe) z
    refine ⟨congrArg (·.estopLatch) hframe, congrArg (·.estop.qualified) hframe, rfl, hstop.openList,
      ⟨more ++ told ++ haltsDone s z, ?_, ?_⟩, fun c => ?_, ?_, hleft, fun c hd => ?_, hheld, fun c => ?_, fun hroom => ⟨?_, ?_⟩,
      fun hfull => ?_, ?_⟩
    · show u.posting ++ told ++ haltsDone z z = _
      rw [hdone, hmore]
      simp only [List.append_assoc]
    · rw [rendezvousRecords_append, rendezvousRecords_append, hrecords, htoldquiet, rendezvousRecords_haltsDone]
      simp
    · exact (hchan c).trans (haltOrder_on c .abrupt false s).chan.symm
    · show u.posting ++ told ++ haltsDone z z = _
      rw [hdone, hposting]
      rfl
    · exact (hchan c).trans (afterOrder_of_held (.inr hd) _ _)
    · show u.position c = s.position c ∧ (u.chan c).pgn.pulseEnd = (s.chan c).pgn.pulseEnd
        ∧ (u.chan c).pgn.dirHigh = (s.chan c).pgn.dirHigh
      obtain ⟨hpulse, hdir, hpos⟩ := afterOrder_keeps (s.chan c) .abrupt false
      rw [State.position, hchan]
      exact ⟨hpos, hpulse, hdir⟩
    · have hin : told = [{ record with lost := BitVec.ofNat 8 s.lost }] := if_pos hroom
      show _ ∈ u.posting ++ told ++ haltsDone z z
      rw [hin]
      simp
    · exact if_pos hroom
    · exact if_neg (Nat.not_lt.mpr hfull)
    · exact congrArg (fun u : State => ({ u with
        aux := safe, lost := z.lost, halts := haltsLeft z z, posting := z.posting ++ haltsDone z z, stall := stall, irq := irq,
        messages := messages } : State)) hframe
  · let v : State := { s with estop := changed true }
    let m : Mask := maskOf fun c => (s.chan c).state == .stopping
    have hf : takeAssertion v = (haltMask m .abrupt false v).1 := by
      refine Eq.trans ?_ (assertEstopFailed_eq (s := v) hshaped)
      unfold takeAssertion
      rw [show v.part = .failed from hp]
    have hchan (c : Chan) : (haltMask m .abrupt false v).1.chan c
        = if hasChan m c then (s.chan c).afterOrder .abrupt false else s.chan c := haltMask_chan m .abrupt false v c
    have hnamed (c : Chan) : hasChan m c = true ↔ (s.chan c).state = .stopping := by simp [m]
    obtain ⟨-, records, hs', hv⟩ := haltOrders_same (s := s) (t := v) ⟨fun _ => rfl, rfl, rfl, rfl⟩ (chansOf m) .abrupt false
    obtain ⟨hframe, -⟩ := haltOrders_frame (chansOf m) .abrupt false v
    change (haltMask m .abrupt false v).1 = { v with
      chans := (haltMask m .abrupt false v).1.chans, posting := (haltMask m .abrupt false v).1.posting } at hframe
    change (haltMask m .abrupt false v).1.posting = s.posting ++ records at hv
    have hposting : (haltMask m .abrupt false v).1.posting = (orders m).posting := hv.trans hs'.symm
    generalize (haltMask m .abrupt false v).1 = u at *
    refine answers_effect (f := fun s => if s.estopCompletes && !s.estop.qualified then takeAssertion (changeEstop s) else s) h
      fun stall irq messages => ?_
    rw [hasserted hc hq, hf]
    have hdone : haltsDone u u = haltsDone s u := haltsDone_congr (congrArg (·.halts) hframe) (congrArg (·.clock) hframe) u
    have hleft : haltsLeft u u = haltsLeft s u := haltsLeft_congr (congrArg (·.halts) hframe) u
    have hstopping (c : Chan) (hst : (s.chan c).state = .stopping) : u.chan c = (s.chan c).afterOrder .abrupt false := by
      rw [hchan, if_pos ((hnamed c).mpr hst)]
    have hother (c : Chan) (hst : (s.chan c).state ≠ .stopping) : u.chan c = s.chan c := by
      rw [hchan, if_neg (mt (hnamed c).mp hst)]
    rw [hdone, hleft]
    refine ⟨congrArg (·.estopLatch) hframe, congrArg (·.estop.qualified) hframe, congrArg (·.aux) hframe, fun c hst => ?_, hother,
      fun c hst => (hstopping c hst).trans (haltOrder_on c .abrupt false s).chan.symm, ?_, rfl, fun c => ?_, ?_⟩
    · show (u.chan c).state = .held
      rw [hstopping c hst]
      exact afterOrder_abrupt (by rw [hst]; exact ChanState.noConfusion) false
    · exact congrArg (· ++ haltsDone s u) hposting
    · show u.position c = s.position c ∧ (u.chan c).cfg = (s.chan c).cfg
      rw [State.position, hchan]
      split
      · exact ⟨(afterOrder_keeps _ .abrupt false).2.2, cfg_afterOrder _ .abrupt false⟩
      · exact ⟨rfl, rfl⟩
    · rw [hframe]

end Sys2Proof.Machine
end

section
/-! Qualified limit inputs, and the abrupt stop that they give (R66, R68, O44). -/

namespace Sys2Proof.Machine

theorem change_of_ne {q : Qual} {active : Bool} (h : q.qualified ≠ active) :
    q.change = { q with before := none, qualified := active } := by
  rw [Qual.change, Bool.eq_not.mpr h.symm]

theorem limitEnabled_iff {ch : Channel} {input : LimitInput} : ch.limitEnabled input = true
    ↔ (input = .limp ∧ ch.cfg.limpEnable = true) ∨ (input = .limn ∧ ch.cfg.limnEnable = true) := by
  cases input <;> simp [Channel.limitEnabled]

theorem movingToward_iff {ch : Channel} {input : LimitInput} : movingToward ch input = true
    ↔ (ch.state = .running ∨ ch.state = .stopping)
      ∧ ∃ x, ch.resolved = some x ∧ (x.positive = true ↔ input = .limp) := by
  have hsign (positive : Bool) : (positive == limitPositive input) = true ↔ (positive = true ↔ input = .limp) := by
    cases input <;> simp [limitPositive]
  simp only [movingToward, Bool.and_eq_true, Bool.or_eq_true, beq_iff_eq]
  refine and_congr_right fun _ => ?_
  cases ch.resolved with
  | none => simp
  | some x => simpa using hsign x.positive

/-- The completion of a head that a limit stops, before and after the change of the qualifier (R57, R68). -/
theorem haltedMove_setLimit (ch : Channel) (input : LimitInput) (q : Qual) (m : MoveEntry) (byLimit : Bool) :
    haltedMove (ch.setLimit input q) m byLimit = haltedMove ch m byLimit := by
  rw [setLimit_frame]
  rfl

theorem headMove_cons {ch : Channel} {m : MoveEntry} (h : ch.headMove? = some m) : ch.queue = .move m :: ch.queue.tail := by
  unfold Channel.headMove? at h
  split at h
  · rename_i hq
    obtain rfl := Option.some.inj h
    rw [hq]
    rfl
  · cases h

theorem takeLimitChange_quiet {s : State} {c : Chan} {input : LimitInput} {active : Bool}
    (h : ∀ m, (s.chan c).headMove? = some m →
      ¬(active = true ∧ (s.chan c).limitEnabled input = true ∧ movingToward (s.chan c) input = true)) :
    takeLimitChange c input active s = s.setChan c ((s.chan c).setLimit input ((s.chan c).limit input).change) := by
  unfold takeLimitChange
  cases hm : (s.chan c).headMove? with
  | none => simp only [hm]
  | some m =>
    simp only [hm]
    exact if_neg fun hacts => h m hm (by simpa [and_assoc] using hacts)

theorem takeLimitChange_acts {s : State} {c : Chan} {input : LimitInput} {active : Bool} {m : MoveEntry}
    (hm : (s.chan c).headMove? = some m) (ha : active = true) (he : (s.chan c).limitEnabled input = true)
    (ht : movingToward (s.chan c) input = true) : takeLimitChange c input active s
      = limitStop c input m (s.setChan c ((s.chan c).setLimit input ((s.chan c).limit input).change)) := by
  unfold takeLimitChange
  simp only [hm]
  exact if_pos (by simp [ha, he, ht])

/-- The channel keeps what it holds as its limit qualifier changes (R68). -/
theorem comingToRest_setLimit (ch : Channel) (input : LimitInput) (q : Qual) :
    (ch.setLimit input q).comingToRest = ch.comingToRest := by
  cases input <;> rfl

/-- What the stop at a limit leaves before the withdrawals it sends are taken (R56, R68). -/
theorem limitStop_spec (s : State) (c : Chan) (input : LimitInput) (m : MoveEntry) :
    ∃ t : State, Withdrawn t (limitStop c input m s) ∧ t = { s.setChan c ((s.chan c).afterHeld true) with
      posting := (s.postNotice (limitNotice s c input m)).posting ++ heldRecords s c true
      lost := (s.postNotice (limitNotice s c input m)).lost } := by
  let v := s.postNotice (limitNotice s c input m)
  have hv : v = _ := postNotice_eq s (limitNotice s c input m)
  have hchan : v.chan c = s.chan c := State.chan_postNotice _ _ c
  have hsame : SameHalting s v := ⟨State.chan_postNotice _ _, by rw [hv], by rw [hv], by rw [hv]⟩
  have hheld := enterHeld_eq c true v
  have hwith : Withdrawals (enterHeld c true v).2 := fun sig h => by
    rw [hheld] at h
    obtain ⟨i, hi, _⟩ := mem_heldSignals h
    exact ⟨c, i, hi⟩
  have hw := settle_withdrawals hwith
  refine ⟨_, hw, ?_⟩
  rw [hheld, hchan, hsame.heldRecords]
  show ({ v.setChan c ((s.chan c).afterHeld true) with posting := v.posting ++ heldRecords s c true } : State) = { s.setChan c _ with
    posting := v.posting ++ heldRecords s c true, lost := v.lost }
  rw [hv]
  rfl

/-- The record of a head that a limit stops (R57, R68). -/
theorem haltedRecord_limit {s : State} {c : Chan} {input : LimitInput} {q : Qual} (m : MoveEntry) :
    haltedRecord (s.setChan c ((s.chan c).setLimit input q)) c m true
      = s.done .main ReqKind.move.code m.tag .limit
        { unbound := (s.chan c).binding == .unbound, short := false, overridden := m.overridden
          watchHalt := (s.chan c).watchHalt } (chanByte c) (s.position c) (auxNat (s.chan c).pgn.emitted)
        (auxNat (if (s.chan c).pgn.emitted = 0 then 0 else isqrt (s.chan c).pgn.rateSq)) := by
  have hpos : (s.setChan c ((s.chan c).setLimit input q)).position c = s.position c := by
    rw [s.position_setChan_self, setLimit_frame]
    rfl
  simp only [haltedRecord, State.chan_setChan_self, haltedMove_setLimit, State.entryDone, hpos]
  rfl

/-- Settles O44: a change of a qualified limit input, and the abrupt stop of a channel that moves toward it. -/
theorem limitChangesAct : Obligations.LimitChangesAct := by
  intro s c input active h hs hshaped ch q level comes changed forward acts
  let met : Bool := ch.limitCompletes input s.now && q.qualified != active
  have hmet : met = true ↔ comes := by
    simp only [met, comes, level, Bool.and_eq_true, bne_iff_ne, Channel.limitCompletes, limitTarget_eq]
    rfl
  have hacts : acts ↔ active = true ∧ ch.limitEnabled input = true ∧ movingToward ch input = true := by
    rw [limitEnabled_iff, movingToward_iff]
  have hchanged (hc : comes) : ch.setLimit input (ch.limit input).change = changed :=
    congrArg (ch.setLimit input) (change_of_ne hc.2)
  let f : State → State := fun s => if (s.chan c).limitCompletes input s.now && ((s.chan c).limit input).qualified != active
    then takeLimitChange c input active s else s
  have hf (hc : comes) : f s = takeLimitChange c input active s := if_pos (hmet.mpr hc)
  refine ⟨fun hno => ?_, fun hc hno => ?_, fun hc hyes m hm => ?_⟩
  · exact answers_unmet (b := met) (f := takeLimitChange c input active) h hs (Bool.eq_false_iff.mpr (mt hmet.mp hno))
  · have hquiet : f s = s.setChan c changed :=
      (hf hc).trans ((takeLimitChange_quiet fun _ _ => mt hacts.mpr hno).trans (congrArg (s.setChan c) (hchanged hc)))
    have hself : (s.setChan c changed).chan c = changed := s.chan_setChan_self c _
    have hsettled : (s.setChan c changed).haltsSettled :=
      haltsSettled_of_chan hs rfl (fun d hd => s.chan_setChan_of_ne hd _) fun hrest => by
        rw [hself, comingToRest_setLimit]
        exact hrest
    exact answers_state (f := f) h hquiet hsettled fun _ _ _ => ⟨hself, fun d hd => s.chan_setChan_of_ne hd _, rfl⟩
  · obtain ⟨hactive, henabled, htoward⟩ := hacts.mp hyes
    have hstop : f s = limitStop c input m (s.setChan c changed) :=
      (hf hc).trans ((takeLimitChange_acts hm hactive henabled htoward).trans
        (congrArg (fun x => limitStop c input m (s.setChan c x)) (hchanged hc)))
    obtain ⟨v, hw, hv⟩ := limitStop_spec (s.setChan c changed) c input m
    have hself : (s.setChan c changed).chan c = changed := s.chan_setChan_self c _
    have hpos : (s.setChan c changed).position c = s.position c := by
      rw [s.position_setChan_self, show changed = _ from setLimit_frame ch input _]
      rfl
    rw [hself] at hv
    have hkeep : changed = { ch with limp := changed.limp, limn := changed.limn } := setLimit_frame ch input _
    have hq : changed.queue = .move m :: ch.queue.tail := by
      rw [hkeep]
      exact headMove_cons hm
    have hvc : v.chan c = changed.afterHeld true := by
      rw [hv]
      exact State.chan_setChan_self _ c _
    have hheld : (v.chan c).state = .held := by
      rw [hvc]
      exact (afterHeld_spec _ _).1
    generalize limitStop c input m (s.setChan c changed) = w at *
    have hwc : w.chan c = changed.afterHeld true := by
      rcases hw.chan c with hwc | ⟨hwc, -⟩
      · exact hwc.trans hvc
      · rw [hwc, afterOrder_of_held (.inl hheld), hvc]
    obtain ⟨more, hmore⟩ := hw.posting
    refine answers_effect (f := f) h fun stall irq messages => ?_
    rw [hstop]
    intro notice told flushed rate flags stopped
    have hnotice : limitNotice (s.setChan c changed) c input m = notice := by
      cases input <;> simp only [limitNotice, hpos] <;> rfl
    have hroom : (s.setChan c changed).notices = s.notices := rfl
    rw [hnotice, postNotice_eq, hroom] at hv
    have hposting : w.posting = s.posting ++ told ++ heldRecords (s.setChan c changed) c true ++ more := by
      rw [hmore, hv]
      rfl
    have hflushed : flushed = ch.queue.tail.filterMap (cancelled? (s.setChan c changed) c) := by
      refine congrArg (fun g => ch.queue.tail.filterMap g) (cancelled_of_position ?_ ?_ ?_ ?_)
      · show (w.chan c).pgn.position = _
        rw [hwc, position_afterHeld, hpos, hkeep]
        rfl
      all_goals
        rw [hw.frame, hv]
        rfl
    have hrecord : haltedRecord (s.setChan c changed) c m true
        = s.done .main ReqKind.move.code m.tag .limit flags (chanByte c) (s.position c) (auxNat ch.pgn.emitted) rate :=
      haltedRecord_limit m
    have hpgn : changed.pgn = ch.pgn := congrArg (·.pgn) hkeep
    have hpulse : ((s.setChan c changed).chan c).pgn.pulseEnd = ch.pgn.pulseEnd := by
      rw [hself, hpgn]
    have hrecords := heldRecords_move (s := s.setChan c changed) (c := c) (by rw [hself]; exact hq) true
    rw [← hflushed, hrecord, hpulse] at hrecords
    refine ⟨fun hlow => ⟨?_, more ++ haltsDone w w, ?_⟩, fun hhigh => ⟨?_, more ++ haltsDone w w, ?_⟩, fun hr => ?_, fun hr => ?_, ?_⟩
    · refine hwc.trans ((afterHeld_low hq (by rw [hpgn]; exact hlow) true).trans ?_)
      rw [hpgn]
      rfl
    · show w.posting ++ haltsDone w w = _
      rw [hposting, hrecords, hlow]
      simp
    · refine hwc.trans ((afterHeld_high hq (by rw [hpgn]; exact hhigh) true).trans ?_)
      rw [hpgn, show haltedMove changed m true = haltedMove ch m true from haltedMove_setLimit ch input _ m true]
      rfl
    · show w.posting ++ haltsDone w w = _
      obtain ⟨e, he⟩ := Option.ne_none_iff_exists'.mp hhigh
      rw [hposting, hrecords, he]
      simp
    · show w.lost = 0
      rw [hw.frame, hv]
      exact if_pos hr
    · show w.lost = _
      rw [hw.frame, hv]
      exact if_neg (Nat.not_lt.mpr hr)
    · show ({ w with
        halts := haltsLeft w w, posting := w.posting ++ haltsDone w w, stall := stall, irq := irq, messages := messages } : State) = _
      have hframe : w = { s with
          chans := w.chans, slots := w.slots, openList := w.openList, xsyncLow := w.xsyncLow, xsyncRun := w.xsyncRun
          posting := w.posting, lost := w.lost } := by
        rw [hw.frame, hv]
        rfl
      exact congrArg (fun u : State => ({ u with
        halts := haltsLeft w w, posting := w.posting ++ haltsDone w w, stall := stall, irq := irq, messages := messages } : State))
        hframe

end Sys2Proof.Machine
end

section
/-! The end of the setup read (R154 to R157, R165, R181, O58). -/

namespace Sys2Proof.Machine

/-! ### The checks of the setup block (R155) -/

/-- The bytes that no field of the setup block covers are 27 and 46 to 63 (R181). -/
theorem unusedZero_setup (b : Block) :
    unusedZero setupFields b = true ↔ ∀ i < 64, i = 27 ∨ 46 ≤ i → blockByte b i = 0 := by
  have hunused (i : Nat) (hi : i < 64) : inFields setupFields i = false ↔ i = 27 ∨ 46 ≤ i := by
    simp only [inFields, setupFields, List.any_cons, List.any_nil, Bool.or_false, Bool.or_eq_false_iff, Bool.and_eq_false_iff,
      decide_eq_false_iff_not]
    omega
  rw [unusedZero_iff]
  exact forall₂_congr fun i hi => imp_congr_left (hunused i hi)

/-- The sizes, the bases and the values that the checks of a setup block look at (R155, R181). -/
abbrev SetupSizes (b : Block) : Prop :=
  4 ≤ setupMainLog2 b ∧ setupMainLog2 b ≤ 12 ∧ 4 ≤ setupCtrlLog2 b ∧ setupCtrlLog2 b ≤ 8 ∧ 5 ≤ setupCplLog2 b ∧ setupCplLog2 b ≤ 13

abbrev SetupBases (b : Block) : Prop := blockField b 0 8 % 64 = 0 ∧ blockField b 8 8 % 64 = 0 ∧ blockField b 16 8 % 64 = 0

abbrev SetupValues (b : Block) : Prop := setupCount b ≤ 255 ∧ setupDelay b ≤ 65535 ∧ ∀ i : CapIx, setupFilter b i ≤ 255

section Checks
variable {b : Block}

theorem setupFault_reserved (h : unusedZero setupFields b ≠ true) : setupFault? b = some .setupReserved := by
  unfold setupFault?
  rw [if_pos (by simpa using h)]

theorem setupFault_size (hz : unusedZero setupFields b = true) (h : ¬SetupSizes b) : setupFault? b = some .ringSize := by
  unfold setupFault?
  rw [if_neg (by simp [hz])]
  exact if_pos h

theorem setupFault_base (hz : unusedZero setupFields b = true) (hs : SetupSizes b) (h : ¬SetupBases b) :
    setupFault? b = some .ringBase := by
  unfold setupFault?
  rw [if_neg (by simp [hz]), if_neg (not_not_intro hs)]
  exact if_pos h

theorem setupValues_iff : (setupCount b ≤ 255 ∧ setupDelay b ≤ 65535 ∧ allCaps.all (fun i => decide (setupFilter b i ≤ 255)) = true)
    ↔ SetupValues b := by
  simp [SetupValues, mem_allCaps]

theorem setupFault_value (hz : unusedZero setupFields b = true) (hs : SetupSizes b) (hb : SetupBases b) (h : ¬SetupValues b) :
    setupFault? b = some .setupValue := by
  unfold setupFault?
  rw [if_neg (by simp [hz]), if_neg (not_not_intro hs), if_neg (not_not_intro hb)]
  exact if_pos (mt setupValues_iff.mp h)

theorem setupFault_none (hz : unusedZero setupFields b = true) (hs : SetupSizes b) (hb : SetupBases b) (hv : SetupValues b) :
    setupFault? b = none := by
  unfold setupFault?
  rw [if_neg (by simp [hz]), if_neg (not_not_intro hs), if_neg (not_not_intro hb)]
  exact if_neg (not_not_intro (setupValues_iff.mpr hv))

end Checks

theorem endSetupRead_fails {s : State} {b : Block} {code : FaultCode} (hp : s.part = .starting) (hr : s.setupRead ≠ none)
    (hf : setupFault? b = some code) : endSetupRead .live b s = setupFails code s := by
  unfold endSetupRead
  simp only
  rw [if_pos ⟨hp, Option.isSome_iff_ne_none.mpr hr⟩, hf]

theorem endSetupRead_passes {s : State} {b : Block} (hp : s.part = .starting) (hr : s.setupRead ≠ none)
    (hf : setupFault? b = none) : endSetupRead .live b s = enterRunning b s := by
  unfold endSetupRead
  simp only
  rw [if_pos ⟨hp, Option.isSome_iff_ne_none.mpr hr⟩, hf]

theorem haltsSettled_setupFails {s : State} (hs : s.haltsSettled) (code : FaultCode) : (setupFails code s).haltsSettled :=
  haltsSettled_of hs rfl fun _ h => h

/-! ### An assertion that finds nothing in motion (R164, R165) -/

/-- With every channel halted or IDLE and no slot open, the halts of an assertion hand over and report nothing. -/
theorem estopStopped_still {s : State} (hshaped : s.queuesShaped)
    (hc : ∀ c, (s.chan c).state = .idle ∨ (s.chan c).state = .held ∨ (s.chan c).state = .disabled) (ho : s.openList = []) :
    s.estopStopped = { s with estopLatch := true, chans := s.estopStopped.chans }
      ∧ ∀ c, s.estopStopped.chan c = if (s.chan c).state = .idle
        then { (s.chan c).emptied .held with dwellStart := none } else s.chan c := by
  let v : State := { s with estopLatch := true }
  have hobeyed (c : Chan) : (v.chan c).obeyed .abrupt := by
    rcases hc c with h | h | h
    · exact .inr (.inr (.inr ⟨h, queue_idle (hshaped c) h⟩))
    · exact .inl h
    · exact .inr (.inl h)
  obtain ⟨hposting, hsig⟩ := haltOrders_obeyed (nodup_chansOf (enabledMask s)) (s := v) (fun c _ => hobeyed c) false
  obtain ⟨hframe, -⟩ := haltOrders_frame (chansOf (enabledMask s)) .abrupt false v
  have hchan := haltMask_chan (enabledMask s) .abrupt false v
  change (haltMask (enabledMask s) .abrupt false v).1.posting = _ at hposting
  change (haltMask (enabledMask s) .abrupt false v).2 = _ at hsig
  change (haltMask (enabledMask s) .abrupt false v).1 = { v with
    chans := (haltMask (enabledMask s) .abrupt false v).1.chans
    posting := (haltMask (enabledMask s) .abrupt false v).1.posting } at hframe
  have hstopped : s.estopStopped = (haltMask (enabledMask s) .abrupt false v).1 := by
    show ((haltMask (enabledMask s) .abrupt false v).andThen (failAllSlots .aborted)).settle = _
    generalize haltMask (enabledMask s) .abrupt false v = a at *
    obtain ⟨u, l⟩ := a
    obtain rfl : l = [] := hsig
    have hopen : u.openList = [] := (congrArg (·.openList) hframe).trans ho
    simp only [Act.andThen, failAllSlots, hopen, eachAct_nil, List.append_nil, settle_quiet]
  rw [hstopped]
  refine ⟨?_, fun c => ?_⟩
  · rw [hposting] at hframe
    exact hframe
  · have horder : (haltMask (enabledMask s) .abrupt false v).1.chan c = (s.chan c).afterOrder .abrupt false := by
      refine (hchan c).trans ?_
      split
      · rfl
      · rename_i hno
        exact (afterOrder_of_held (.inr (not_not.mp (mt (hasChan_enabledMask s c).mpr hno))) _ _).symm
    rw [horder]
    rcases hc c with h | h | h
    · have hhead : (s.chan c).headMove? = none := by simp [Channel.headMove?, queue_idle (hshaped c) h]
      rw [if_pos h, ← afterHeld_other hhead false]
      simp only [Channel.afterOrder, h]
    · rw [if_neg (by rw [h]; exact ChanState.noConfusion), afterOrder_of_held (.inl h)]
    · rw [if_neg (by rw [h]; exact ChanState.noConfusion), afterOrder_of_held (.inr h)]

/-- The assertion that finds nothing in motion, in one equation (R164). -/
theorem assertEstop_still {s : State} (hshaped : s.queuesShaped)
    (hc : ∀ c, (s.chan c).state = .idle ∨ (s.chan c).state = .held ∨ (s.chan c).state = .disabled) (ho : s.openList = []) :
    assertEstop s = { s with
      estopLatch := true, chans := s.estopStopped.chans, aux := safePatternOf s
      posting := s.posting ++ if s.notices < 16 then [{ s.estopRecord with lost := BitVec.ofNat 8 s.lost }] else []
      lost := if s.notices < 16 then 0 else min 255 (s.lost + 1) } := by
  obtain ⟨hframe, -⟩ := estopStopped_still hshaped hc ho
  have hassert : assertEstop s = ({ s.estopStopped with aux := safePatternOf s } : State).postNotice
    (({ s.estopStopped with aux := safePatternOf s } : State).notice noticeEstop 0 0 0 (auxMask (enabledMask s))
      (auxMask (safePatternOf s))) := rfl
  generalize s.estopStopped = u at *
  rw [hassert, postNotice_eq, hframe]
  rfl

/-! ### The entry to RUNNING (R156) -/

/-- Settles O58: a setup block that passes brings every block into service; a read that fails, or a block that fails a check,
takes the part back to OFF. -/
theorem setupReadEndsStarting : Obligations.SetupReadEndsStarting := by
  intro s b h hs nothing
  refine ⟨answers_nothing (f := endSetupRead .dropped b) h hs rfl, answers_nothing (f := failSetupRead .dropped) h hs rfl, fun hno => ?_, fun hp hr => ?_⟩
  · have hnot : ¬(s.part = .starting ∧ s.setupRead.isSome = true) := fun ⟨hp, hr⟩ =>
      hno.elim (absurd hp) fun hr' => absurd hr (by simp [hr'])
    exact ⟨answers_nothing (f := endSetupRead .live b) h hs (if_neg hnot), answers_nothing (f := failSetupRead .live) h hs (if_neg hnot)⟩
  intro fails zeros sizes bases values loaded
  have hzeros : unusedZero setupFields b = true ↔ zeros := unusedZero_setup b
  have hboth : s.part = .starting ∧ s.setupRead.isSome = true := ⟨hp, Option.isSome_iff_ne_none.mpr hr⟩
  have hfault (code : FaultCode) (hf : setupFault? b = some code) : Answers (exec (.setupReadDone .live b) s) (fails code) :=
    answers_state (f := endSetupRead .live b) h (endSetupRead_fails hp hr hf) (haltsSettled_setupFails hs code) fun _ _ _ => rfl
  have hpass (hz : zeros) (hsz : sizes) (hb : bases) (hv : values) : setupFault? b = none :=
    setupFault_none (hzeros.mpr hz) hsz hb hv
  have hloaded (latch : Bool) (chans : Vector Channel 8) (aux : Mask) (posting : List Cpl) (lost : Nat) (stall : StallCause)
      (irq : Bool) (messages : Nat) : loaded { loadSetup b s with
        estopLatch := latch, chans := chans, aux := aux, posting := posting, lost := lost, stall := stall, irq := irq
        messages := messages } := by
    refine ⟨rfl, rfl, rfl, rfl, rfl, rfl, rfl, rfl, rfl, rfl, rfl, rfl, fun i => ⟨?_, ?_⟩, rfl, rfl, rfl, rfl⟩
    · exact (updateAll_get _ (by decide) _ i _).trans (if_pos (mem_allCaps i))
    · exact (updateAll_get _ (by decide) _ i _).trans (if_pos (mem_allCaps i))
  refine ⟨answers_state (f := failSetupRead .live) h (if_pos hboth) (haltsSettled_setupFails hs .setupRead) fun _ _ _ => rfl,
    fun hz => hfault _ (setupFault_reserved (mt hzeros.mp hz)), fun hz hsz => hfault _ (setupFault_size (hzeros.mpr hz) hsz),
    fun hz hsz hb => hfault _ (setupFault_base (hzeros.mpr hz) hsz hb),
    fun hz hsz hb hv => hfault _ (setupFault_value (hzeros.mpr hz) hsz hb hv), fun hz hsz hb hv hno => ?_,
    fun hz hsz hb hv hq hl hshaped hc ho => ?_⟩
  · have hload : enterRunning b s = loadSetup b s := by
      unfold enterRunning
      rcases hno with hno | hno
      · exact if_neg (by simp [loadSetup, hno])
      · have hquiet : takeAssertion (loadSetup b s) = loadSetup b s := if_pos hno
        simp only [hquiet, ite_self]
    refine answers_state (f := endSetupRead .live b) h ((endSetupRead_passes hp hr (hpass hz hsz hb hv)).trans hload)
      (haltsSettled_of hs rfl fun _ h => h) fun stall irq messages => ?_
    refine ⟨hloaded s.estopLatch s.chans _ s.posting 0 stall irq messages, ?_, rfl, rfl, rfl, rfl, rfl, rfl, rfl, rfl, rfl⟩
    show (if s.estopLatch || s.estop.qualified then setupSafe b else setupInitial b) = _
    rcases hno with hno | hno
    · rw [hno, Bool.or_false]
      rfl
    · simp only [hno, Bool.true_or, if_true]
      rfl
  · have hload : enterRunning b s = assertEstop (loadSetup b s) := by
      have hact : takeAssertion (loadSetup b s) = assertEstop (loadSetup b s) := if_neg (by simp [loadSetup, hl])
      exact (if_pos hq).trans hact
    rw [assertEstop_still (s := loadSetup b s) hshaped hc ho] at hload
    obtain ⟨-, hchan⟩ := estopStopped_still (s := loadSetup b s) hshaped hc ho
    generalize (loadSetup b s).estopStopped = u at *
    refine answers_state (f := endSetupRead .live b) h ((endSetupRead_passes hp hr (hpass hz hsz hb hv)).trans hload)
      (haltsSettled_of hs rfl fun c hrest => ?_) fun stall irq messages => ?_
    · have hbusy : (s.chan c).state ≠ .idle := fun hidle => by simp [Channel.comingToRest, hidle] at hrest
      show (u.chan c).comingToRest = true
      have hsame : u.chan c = s.chan c := (hchan c).trans (if_neg hbusy)
      rw [hsame]
      exact hrest
    · intro enabled record
      refine ⟨hloaded true u.chans _ _ _ stall irq messages, rfl, rfl, hchan, fun hroom => ⟨?_, ?_⟩, rfl, ho, rfl, rfl, rfl⟩
      · show s.posting ++ (if s.notices < 16 then _ else _) = _
        rw [if_pos hroom]
        rfl
      · exact if_pos hroom

end Sys2Proof.Machine
end

section
/-! A RENDEZVOUS admitted: the MARKERs that its members take, the arrivals, and the slot that gathers them (R77 to R80, O27). -/

namespace Sys2Proof.Machine

/-! ### The MARKERs (R77) -/

/-- A channel as its queue takes the MARKER of slot i: an IDLE one runs it at once (R77, R78). -/
def Channel.joined (ch : Channel) (i : SlotIx) : Channel :=
  if ch.state = .idle then { ch.emptied .waiting with queue := [.marker i] } else { ch with queue := ch.queue ++ [.marker i] }

theorem appendMarker_eq {s : State} {c : Chan} (h : (s.chan c).shaped = true) (i : SlotIx) : appendEntry c (.marker i) s
    = (s.setChan c ((s.chan c).joined i), if (s.chan c).state = .idle then [.arrive c i] else []) := by
  unfold Channel.joined
  by_cases hidle : (s.chan c).state = .idle
  · rw [appendEntry_idle h hidle, runHead_marker, if_pos hidle, if_pos hidle]
  · rw [appendEntry_joins hidle, if_neg hidle, if_neg hidle]

/-- The MARKERs of a slot at the tail of its members' queues; the IDLE members have arrived (R77, R78). -/
theorem appendMarkers_spec {l : List Chan} (hl : l.Nodup) {s : State} (h : ∀ c ∈ l, (s.chan c).shaped = true) (i : SlotIx) :
    (eachAct l (fun c => appendEntry c (.marker i)) s).2
        = (l.filter fun c => (s.chan c).state == .idle).map (Signal.arrive · i)
      ∧ (∀ d, (eachAct l (fun c => appendEntry c (.marker i)) s).1.chan d
        = if d ∈ l then (s.chan d).joined i else s.chan d)
      ∧ (eachAct l (fun c => appendEntry c (.marker i)) s).1 = { s with
        chans := (eachAct l (fun c => appendEntry c (.marker i)) s).1.chans } := by
  induction l generalizing s with
  | nil => exact ⟨rfl, fun d => by simp, rfl⟩
  | cons c rest ih =>
    obtain ⟨hc, hr⟩ := List.nodup_cons.mp hl
    have hother (d : Chan) (hd : d ≠ c) := State.chan_setChan_of_ne s hd ((s.chan c).joined i)
    have hrest (d : Chan) (hd : d ∈ rest) := hother d fun he => hc (he ▸ hd)
    obtain ⟨hsig, hchan, hframe⟩ := ih (s := s.setChan c ((s.chan c).joined i)) hr fun d hd => by
      rw [hrest d hd]
      exact h d (List.mem_cons_of_mem _ hd)
    rw [eachAct_cons, appendMarker_eq (h c List.mem_cons_self)]
    refine ⟨?_, fun d => (hchan d).trans ?_, hframe⟩
    · have hsame : rest.filter (fun d => ((s.setChan c ((s.chan c).joined i)).chan d).state == .idle)
          = rest.filter fun d => (s.chan d).state == .idle := List.filter_congr fun d hd => by rw [hrest d hd]
      simp only [hsig, hsame]
      by_cases hidle : (s.chan c).state = .idle <;> simp [hidle]
    · by_cases hd : d = c
      · subst hd
        simp [hc]
      · simp [hd, hother d hd]

/-! ### Arrivals (R78, R79, R80, R89) -/

section Arrival
variable {s : State} {c : Chan} {i : SlotIx} {sl : Slot}

theorem takeArrival_free (h : s.slots[i] = none) (c : Chan) : takeArrival c i s = (s, []) := by
  unfold takeArrival
  rw [h]

theorem takeArrival_repeated (h : s.slots[i] = some sl) (hc : hasChan sl.members c = false ∨ hasChan sl.arrived c = true) :
    takeArrival c i s = (s, []) := by
  unfold takeArrival
  rw [h]
  exact if_neg (by rcases hc with hc | hc <;> simp [hc])

theorem takeArrival_gathers (h : s.slots[i] = some sl) (hm : hasChan sl.members c = true) (ha : hasChan sl.arrived c = false)
    (hmore : sl.arrived ||| chanBit c ≠ sl.members) : takeArrival c i s = (s.setSlot i (some (sl.arrive c s.now)), []) := by
  unfold takeArrival
  rw [h]
  exact (if_pos (by simp [hm, ha])).trans (if_neg hmore)

theorem takeArrival_syncs (h : s.slots[i] = some sl) (hm : hasChan sl.members c = true) (ha : hasChan sl.arrived c = false)
    (hall : sl.arrived ||| chanBit c = sl.members) (he : sl.external = true) :
    takeArrival c i s = (enterSyncing i (sl.arrive c s.now) s, []) := by
  unfold takeArrival
  rw [h]
  exact (if_pos (by simp [hm, ha])).trans ((if_pos hall).trans (if_pos he))

theorem takeArrival_releases (h : s.slots[i] = some sl) (hm : hasChan sl.members c = true) (ha : hasChan sl.arrived c = false)
    (hall : sl.arrived ||| chanBit c = sl.members) (he : sl.external = false) :
    takeArrival c i s = releaseSlot i (s.setSlot i (some (sl.arrive c s.now))) := by
  unfold takeArrival
  rw [h]
  exact (if_pos (by simp [hm, ha])).trans ((if_pos hall).trans (if_neg (by rw [show (sl.arrive c s.now).external = false from he]; exact Bool.false_ne_true)))

theorem setSlot_self (h : s.slots[i] = some sl) : s.setSlot i (some sl) = s := by
  have hset : s.slots.set i (some sl) = s.slots := by
    ext j hj
    by_cases hji : i.val = j
    · subst hji
      simp [← h]
    · simp [Vector.getElem_set_ne _ _ hji]
  rw [State.setSlot, hset]

theorem setSlot_setSlot (s : State) (i : SlotIx) (x y : Option Slot) : (s.setSlot i x).setSlot i y = s.setSlot i y := by
  simp [State.setSlot]

end Arrival

theorem expiryFrom_eq (sl : Slot) (now : Nat) :
    expiryFrom sl now = if sl.timeout = 0 then none else some (now + 40000 * sl.timeout) := by
  rw [expiryFrom, usCycles_eq, show 40 * (sl.timeout * 1000) = 40000 * sl.timeout by omega]

/-- A slot as several channels arrive at one instant (R78, R79). -/
def Slot.arriveAll (sl : Slot) (l : List Chan) (now : Nat) : Slot := l.foldl (fun sl c => sl.arrive c now) sl

theorem hasChan_arriveAll (sl : Slot) (l : List Chan) (now : Nat) (c : Chan) :
    hasChan (sl.arriveAll l now).arrived c = (hasChan sl.arrived c || decide (c ∈ l)) := by
  induction l generalizing sl with
  | nil => simp [Slot.arriveAll]
  | cons d rest ih =>
    refine (ih (sl.arrive d now)).trans ?_
    show (hasChan (sl.arrived ||| chanBit d) c || _) = _
    rw [hasChan_or, hasChan_chanBit]
    by_cases hd : c = d
    · simp [hd]
    · simp [hd, beq_eq_false_iff_ne.mpr hd]

/-- Arrivals at a slot that is no longer OPEN complete its arrived set alone (R79). -/
theorem arriveAll_gathering {sl : Slot} (h : sl.state ≠ .opened) (l : List Chan) (now : Nat) :
    sl.arriveAll l now = { sl with arrived := (sl.arriveAll l now).arrived } := by
  induction l generalizing sl with
  | nil => rfl
  | cons d rest ih =>
    have hfirst : sl.arrive d now = { sl with arrived := sl.arrived ||| chanBit d } := by simp [Slot.arrive, h]
    have hrest := ih (sl := sl.arrive d now) (by rw [hfirst]; exact h)
    show (sl.arrive d now).arriveAll rest now = { sl with arrived := ((sl.arrive d now).arriveAll rest now).arrived }
    rw [hfirst] at hrest ⊢
    exact hrest

/-- Arrivals at an OPEN slot: the first makes it GATHERING and starts its timer (R78, R79). -/
theorem arriveAll_opened {sl : Slot} (h : sl.state = .opened) {l : List Chan} (hl : l ≠ []) (now : Nat) :
    sl.arriveAll l now = { sl with
      arrived := (sl.arriveAll l now).arrived, state := .gathering, expiry := expiryFrom sl now } := by
  cases l with
  | nil => exact absurd rfl hl
  | cons d rest =>
    have hfirst : sl.arrive d now = { sl with
        arrived := sl.arrived ||| chanBit d, state := .gathering, expiry := expiryFrom sl now } := by simp [Slot.arrive, h]
    have hrest := arriveAll_gathering (sl := sl.arrive d now) (by rw [hfirst]; exact SlotState.noConfusion) rest now
    show (sl.arrive d now).arriveAll rest now = { sl with
      arrived := ((sl.arrive d now).arriveAll rest now).arrived, state := .gathering, expiry := expiryFrom sl now }
    rw [hfirst] at hrest ⊢
    exact hrest

theorem arriveAll_members (sl : Slot) (l : List Chan) (now : Nat) : (sl.arriveAll l now).members = sl.members := by
  induction l generalizing sl with
  | nil => rfl
  | cons d rest ih => exact ih (sl.arrive d now)

theorem external_arriveAll (sl : Slot) (l : List Chan) (now : Nat) : (sl.arriveAll l now).external = sl.external := by
  induction l generalizing sl with
  | nil => rfl
  | cons d rest ih => exact ih (sl.arrive d now)

/-- Arrivals that leave a member out: the slot gathers them all (R78). -/
theorem takeArrivals_gather {l : List Chan} (hl : l.Nodup) {s : State} {i : SlotIx} {sl : Slot} (hi : s.slots[i] = some sl)
    (hm : ∀ c ∈ l, hasChan sl.members c = true ∧ hasChan sl.arrived c = false) {d : Chan} (hd : hasChan sl.members d = true)
    (hout : hasChan sl.arrived d = false) (hdl : d ∉ l) :
    eachAct (l.map (Signal.arrive · i)) takeSignal s = (s.setSlot i (some (sl.arriveAll l s.now)), []) := by
  induction l generalizing s sl with
  | nil => exact Prod.ext (setSlot_self hi).symm rfl
  | cons c rest ih =>
    obtain ⟨hc, hr⟩ := List.nodup_cons.mp hl
    obtain ⟨hdc, hdr⟩ := not_or.mp (mt List.mem_cons.mpr hdl)
    obtain ⟨hmember, hnew⟩ := hm c List.mem_cons_self
    have hmore : sl.arrived ||| chanBit c ≠ sl.members := fun he => by
      have := congrArg (hasChan · d) he
      simp [hasChan_or, hasChan_chanBit, hout, hd, hdc] at this
    have hfirst : takeSignal (.arrive c i) s = (s.setSlot i (some (sl.arrive c s.now)), []) :=
      takeArrival_gathers hi hmember hnew hmore
    have hother (e : Chan) (he : e ≠ c) : hasChan (sl.arrive c s.now).arrived e = hasChan sl.arrived e := by
      show hasChan (sl.arrived ||| chanBit c) e = _
      rw [hasChan_or, hasChan_chanBit, beq_eq_false_iff_ne.mpr he, Bool.or_false]
    have hrest := ih hr (s := s.setSlot i (some (sl.arrive c s.now))) (sl := sl.arrive c s.now)
      (by rw [State.slots_setSlot_get, if_pos rfl])
      (fun e he => ⟨(hm e (List.mem_cons_of_mem _ he)).1,
        (hother e fun hec => hc (hec ▸ he)).trans (hm e (List.mem_cons_of_mem _ he)).2⟩)
      hd ((hother d hdc).trans hout) hdr
    rw [List.map_cons, eachAct_cons, hfirst, hrest, setSlot_setSlot]
    rfl

/-- Signals after which no signal is left (R91). -/
theorem settle_round {s t : State} {l : List Signal} (h : eachAct l takeSignal s = (t, [])) : Act.settle (s, l) = t := by
  cases l with
  | nil => exact congrArg Prod.fst h
  | cons sig rest =>
    show settleRounds 19 (eachAct (sig :: rest) takeSignal s).2 (eachAct (sig :: rest) takeSignal s).1 = t
    rw [h]
    rfl

/-- A MARKER that becomes the head of a queue arrives at its slot, which gathers it (R78). -/
theorem settle_headMarker {v : State} {c : Chan} {i : SlotIx} {sl : Slot} (hi : v.slots[i] = some sl)
    (hm : hasChan sl.members c = true) (ha : hasChan sl.arrived c = false) (hmore : sl.arrived ||| chanBit c ≠ sl.members)
    (behind : List Entry) : (runHead c (.marker i :: behind) v).settle
      = (v.setChan c { (v.chan c).emptied .waiting with queue := .marker i :: behind }).setSlot i (some (sl.arrive c v.now)) := by
  rw [runHead_marker]
  refine settle_round ?_
  rw [eachAct_singleton]
  exact takeArrival_gathers (s := v.setChan c { (v.chan c).emptied .waiting with queue := .marker i :: behind }) hi hm ha hmore

/-! ### The admission (R77) -/

theorem freeSlot?_eq {s : State} {i : SlotIx} (hi : s.slots[i] = none) (hlow : ∀ j : SlotIx, j < i → (s.slots[j]).isSome = true) :
    freeSlot? s = some i := by
  have hsplit : ∀ i : SlotIx, allSlots = allSlots.take i ++ i :: allSlots.drop (i + 1) ∧ ∀ j ∈ allSlots.take i, j < i := by
    decide
  refine List.find?_eq_some_iff_append.mpr ⟨by simp [hi], _, _, (hsplit i).1, fun j hj => ?_⟩
  simpa using hlow j ((hsplit i).2 j hj)

theorem rendezvousClosed_none {s : State} {m : Mask} (h : ∀ c, hasChan m c = true → (s.chan c).isOpen = true) :
    rendezvousClosed s m = none := by
  have hnone : closedMembers s m = 0 := maskOf_eq_zero.mpr fun c => by
    cases hc : hasChan m c with
    | true => simp [h c hc]
    | false => rfl
  exact if_pos hnone

/-- A RENDEZVOUS that passes its checks: the slot opens, its members take their MARKERs, and the IDLE ones have arrived. -/
theorem admitRendezvous_arrivals {s : State} {r : Block} {i : SlotIx} (hf : rendezvousFieldsOk r = true)
    (hopen : ∀ c, hasChan (recMask r 8) c = true → (s.chan c).isOpen = true) (hshaped : s.queuesShaped)
    (hi : s.slots[i] = none) (hlow : ∀ j : SlotIx, j < i → (s.slots[j]).isSome = true) :
    ∃ u : State, admitRendezvous r s
        = Act.settle (u, ((chansOf (recMask r 8)).filter fun c => (s.chan c).state == .idle).map (Signal.arrive · i))
      ∧ (∀ c, u.chan c = if hasChan (recMask r 8) c then (s.chan c).joined i else s.chan c)
      ∧ u = { openSlot i (openedSlot r) s with chans := u.chans } := by
  have howner : ownerRefusal .rendezvous s r = none := by
    simp only [ownerRefusal, hf, Bool.not_true, Bool.false_eq_true, if_false]
    exact rendezvousClosed_none hopen
  have hadmit : admitRendezvous r s
      = (eachAct (chansOf (recMask r 8)) (fun c => appendEntry c (.marker i)) (openSlot i (openedSlot r) s)).settle := by
    simp only [admitRendezvous, howner, freeSlot?_eq hi hlow]
  obtain ⟨hsig, hchan, hframe⟩ := appendMarkers_spec (nodup_chansOf (recMask r 8)) (s := openSlot i (openedSlot r) s)
    (fun c _ => hshaped c) i
  refine ⟨_, ?_, fun c => ?_, hframe⟩
  · rw [hadmit]
    exact congrArg (fun l => Act.settle (_, l)) hsig
  · refine (hchan c).trans ?_
    simp only [mem_chansOf]
    rfl

/-- Settles O27: the slot opens and gathers the IDLE members; an arrival by the slot's state; a MARKER that becomes the head. -/
theorem rendezvousOpensAndGathers : Obligations.RendezvousOpensAndGathers := by
  refine ⟨fun s r i ht hs hshaped hf hst hbusy hi hlow => ?_, fun s c i => ?_, fun s c i sl h hs => ?_⟩
  · intro members timeout there
    simp only [List.mem_cons, List.not_mem_nil, or_false] at hst
    obtain ⟨d, hd, hbusy⟩ := hbusy
    have hopen (c : Chan) (hc : hasChan members c = true) : (s.chan c).isOpen = true := by
      rcases hst c hc with h | h | h | h <;> simp [Channel.isOpen, h]
    obtain ⟨u, hadmit, hchan, hframe⟩ := admitRendezvous_arrivals (s := consume .main s) (r := r) (i := i) hf hopen hshaped hi hlow
    let l := (chansOf members).filter fun c => (s.chan c).state == .idle
    have hl : l.Nodup := (nodup_chansOf members).filter _
    have hmem (c : Chan) : c ∈ l ↔ hasChan members c = true ∧ (s.chan c).state = .idle := by simp [l]
    have huslots : u.slots = s.slots.set i (some (openedSlot r)) := congrArg (·.slots) hframe
    have hui : u.slots[i] = some (openedSlot r) := by rw [huslots]; simp
    have hgather := takeArrivals_gather hl hui (fun c hc => ⟨((hmem c).mp hc).1, hasChan_zero c⟩) hd (hasChan_zero d)
      fun hdl => hbusy ((hmem d).mp hdl).2
    have hown : admitRendezvous r (consume .main s) = u.setSlot i (some ((openedSlot r).arriveAll l u.now)) :=
      hadmit.trans (settle_round hgather)
    have hnow : u.now = s.now := congrArg (·.now) hframe
    have hthere : ((openedSlot r).arriveAll l s.now).arrived = there := mask_ext fun c => by
      rw [hasChan_arriveAll, hasChan_maskOf, show hasChan (openedSlot r).arrived c = false from hasChan_zero c, Bool.false_or]
      exact Bool.eq_iff_iff.mpr (by rw [decide_eq_true_eq, hmem, Bool.and_eq_true, beq_iff_eq])
    have hthere0 : there = 0 ↔ l = [] := by
      rw [List.eq_nil_iff_forall_not_mem, maskOf_eq_zero]
      exact forall_congr' fun c => by rw [hmem, ← Bool.not_eq_true, Bool.and_eq_true, beq_iff_eq]
    have hslot : (openedSlot r).arriveAll l s.now = {
        state := if there = 0 then .opened else .gathering
        tag := recTag r, members := members, arrived := there, timeout := timeout
        expiry := if there = 0 ∨ timeout = 0 then none else some (s.now + 40000 * timeout)
        external := blockByte r 9 == 1 } := by
      by_cases hnone : l = []
      · have hno := hthere0.mpr hnone
        rw [if_pos hno, if_pos (.inl hno), hno, hnone]
        rfl
      · have hsome := mt hthere0.mp hnone
        rw [arriveAll_opened rfl hnone, hthere, if_neg hsome, expiryFrom_eq]
        simp only [hsome, false_or]
        rfl
    rw [hnow, hslot] at hown
    have hjoined (c : Chan) : u.chan c = if hasChan members c then (s.chan c).joined i else s.chan c := hchan c
    refine answers_owner ht hown ?_ fun stall irq messages => ⟨?_, fun j hj => ?_, congrArg (·.openList) hframe,
      congrArg (·.xsyncLow) hframe, fun c hc hidle => ?_, fun c hc hbusy => ?_, fun c hc => ?_, ?_, ?_⟩
    · refine haltsSettled_of hs (congrArg (·.halts) hframe) fun c hrest => ?_
      have hout : ¬hasChan members c = true := fun hc => by
        rcases hst c hc with h | h | h | h <;> simp [Channel.comingToRest, h] at hrest
      exact (congrArg Channel.comingToRest ((hjoined c).trans (if_neg hout))).trans hrest
    · exact (u.slots_setSlot_get i i _).trans (if_pos rfl)
    · refine (u.slots_setSlot_get i j _).trans ((if_neg hj).trans ?_)
      rw [huslots]
      exact (s.slots_setSlot_get i j _).trans (if_neg hj)
    · exact (hjoined c).trans ((if_pos hc).trans (if_pos hidle))
    · exact (hjoined c).trans ((if_pos hc).trans (if_neg hbusy))
    · exact (hjoined c).trans (if_neg (by rw [hc]; exact Bool.false_ne_true))
    · exact tookFrom_of_rings (congrArg (·.mainRing) hframe) (congrArg (·.ctrlRing) hframe)
    · let x : State := u.setSlot i (some {
        state := if there = 0 then .opened else .gathering
        tag := recTag r, members := members, arrived := there, timeout := timeout
        expiry := if there = 0 ∨ timeout = 0 then none else some (s.now + 40000 * timeout)
        external := blockByte r 9 == 1 })
      exact congrArg (fun w : State => ({ w with
        slots := x.slots, openList := x.openList, xsyncLow := x.xsyncLow, mainRing := x.mainRing, ctrlRing := x.ctrlRing
        stall := stall, irq := irq, messages := messages } : State)) hframe
  · intro a
    refine ⟨fun hnone => takeArrival_free hnone c, ?_, fun sl hi => ?_⟩
    · show settleRounds 19 (eachAct [.arrive c i] takeSignal s).2 (eachAct [.arrive c i] takeSignal s).1 = _
      rw [eachAct_singleton]
      rfl
    · intro arrived gathered
      have hgathered : sl.arrive c s.now = gathered := by
        simp only [Slot.arrive, expiryFrom_eq]
        rfl
      refine ⟨takeArrival_repeated hi, fun hm ha => ⟨fun hmore => ?_, fun hall he => ?_, fun hall he => ?_⟩⟩
      · rw [← hgathered]
        exact takeArrival_gathers hi hm ha hmore
      · rw [← hgathered]
        exact takeArrival_syncs hi hm ha hall he
      · rw [← hgathered]
        exact takeArrival_releases hi hm ha hall he
  · intro ch hi hm ha hmore arrives
    have hslots : (takeArrival c i s).1.slots = (s.setSlot i (some (sl.arrive c s.now))).slots := by
      rw [takeArrival_gathers hi hm ha hmore]
    have hend (f : State → State) (v : State) (behind : List Entry) (hf : f s = (runHead c (.marker i :: behind) v).settle)
        (hothers : ∀ d, d ≠ c → v.chan d = s.chan d) (hv : v = { s with chans := v.chans, posting := v.posting })
        (hrest : (s.chan c).comingToRest = false) :
        Answers (outcome s f) fun t => arrives t ∧ (t.chan c).queue = .marker i :: behind := by
      have hvslots : v.slots = s.slots := congrArg (·.slots) hv
      have hnow : v.now = s.now := congrArg (·.now) hv
      let x : Channel := { (v.chan c).emptied .waiting with queue := .marker i :: behind }
      have hself : (v.setChan c x).chan c = x := v.chan_setChan_self c x
      have hsame (d : Chan) (hd : d ≠ c) : (v.setChan c x).chan d = s.chan d := (v.chan_setChan_of_ne hd x).trans (hothers d hd)
      rw [settle_headMarker (by rw [hvslots]; exact hi) hm ha hmore, hnow] at hf
      refine answers_state h hf ?_ fun stall irq messages => ⟨⟨?_, congrArg (·.state) hself, hsame, ?_⟩, congrArg (·.queue) hself⟩
      · exact haltsSettled_of_chan hs (congrArg (·.halts) hv) hsame fun hr => by rw [hrest] at hr; cases hr
      · rw [hslots]
        exact congrArg (fun l => l.set i (some (sl.arrive c s.now))) hvslots
      · exact congrArg (fun w : State => ({ w with
          slots := v.slots.set i (some (sl.arrive c s.now)), chans := (v.setChan c x).chans, stall := stall, irq := irq
          messages := messages } : State)) hv
    refine ⟨fun tag duration start behind hst hq hd hdue => ?_, fun m e behind hst hq hb hleft he hdue => ?_⟩
    · have hdone : reached s.now (dueDwell ch) = true :=
        reached_dueDwell.mpr ⟨hst, tag, duration, .marker i :: behind, start, hq, hd, hdue⟩
      refine hend (atDue (dueDwell ch) (takeDwellExpiry c)) _ behind ((atDue_reached hdone _).trans (takeDwellExpiry_eq hq))
        (fun d hd => s.chan_setChan_of_ne hd _) rfl ?_
      simp [Channel.comingToRest, show (s.chan c).state = .dwelling from hst]
    · have hdone : reached s.now (dueSegmentEnd ch) = true := reached_dueSegmentEnd.mpr ⟨.inl hst, hleft, e, he, hdue⟩
      refine hend (atDue (dueSegmentEnd ch) (takeSegmentEnd c)) _ behind
        ((atDue_reached hdone _).trans (takeSegmentEnd_unbound hst hq hb)) (fun d hd => s.chan_setChan_of_ne hd _) rfl ?_
      simp [Channel.comingToRest, show (s.chan c).state = .running from hst]

end Sys2Proof.Machine
end

section
/-! A RENDEZVOUS admitted while every member is IDLE: the slot is complete at once (R77, R78, R80, R89, O28). -/

namespace Sys2Proof.Machine

/-- The actions of a list, then one more. -/
theorem eachAct_concat {α : Type} (l : List α) (x : α) (f : α → State → Act) (s : State) :
    eachAct (l ++ [x]) f s = ((f x (eachAct l f s).1).1, (eachAct l f s).2 ++ (f x (eachAct l f s).1).2) := by
  induction l generalizing s with
  | nil =>
    rw [List.nil_append, eachAct_singleton]
    rfl
  | cons y rest ih => rw [List.cons_append, eachAct_cons, eachAct_cons, ih, List.append_assoc]

theorem arriveAll_concat (sl : Slot) (l : List Chan) (c : Chan) (now : Nat) :
    sl.arriveAll (l ++ [c]) now = (sl.arriveAll l now).arrive c now := List.foldl_concat ..

/-- Arrivals of every member of a slot at which none has arrived: the last completes the arrived set (R80, R89). -/
theorem takeArrivals_complete {l : List Chan} (hl : l.Nodup) (hne : l ≠ []) {s : State} {i : SlotIx} {sl : Slot}
    (hi : s.slots[i] = some sl) (hm : ∀ c, hasChan sl.members c = true ↔ c ∈ l) (ha : sl.arrived = 0) :
    eachAct (l.map (Signal.arrive · i)) takeSignal s
      = if sl.external then (enterSyncing i (sl.arriveAll l s.now) s, [])
        else releaseSlot i (s.setSlot i (some (sl.arriveAll l s.now))) := by
  obtain hnil | ⟨init, last, rfl⟩ := List.eq_nil_or_concat' l
  · exact absurd hnil hne
  obtain ⟨hinit, -, hlast⟩ := List.nodup_append.mp hl
  have hout : last ∉ init := fun hin => hlast last hin last (List.mem_singleton_self last) rfl
  have hnew (c : Chan) : hasChan sl.arrived c = false := by rw [ha]; exact hasChan_zero c
  have hmember : hasChan sl.members last = true := (hm last).mpr (by simp)
  have hfirst := takeArrivals_gather hinit hi
    (fun c hc => ⟨(hm c).mpr (List.mem_append_left _ hc), hnew c⟩) hmember (hnew last) hout
  let v : State := s.setSlot i (some (sl.arriveAll init s.now))
  have hv : v.slots[i] = some (sl.arriveAll init s.now) := (s.slots_setSlot_get i i _).trans (if_pos rfl)
  have hvm : hasChan (sl.arriveAll init s.now).members last = true := by rw [arriveAll_members]; exact hmember
  have hva : hasChan (sl.arriveAll init s.now).arrived last = false := by
    rw [hasChan_arriveAll, hnew]
    simpa using hout
  have hall : (sl.arriveAll init s.now).arrived ||| chanBit last = (sl.arriveAll init s.now).members := by
    refine mask_ext fun c => ?_
    rw [arriveAll_members, hasChan_or, hasChan_arriveAll, hnew, hasChan_chanBit, Bool.false_or, Bool.eq_iff_iff, hm]
    simp
  have hact : eachAct ((init ++ [last]).map (Signal.arrive · i)) takeSignal s = takeArrival last i v := by
    rw [List.map_append, List.map_singleton, eachAct_concat, hfirst]
    rfl
  rw [hact, arriveAll_concat]
  have hext : (sl.arriveAll init s.now).external = sl.external := external_arriveAll sl init s.now
  cases he : sl.external with
  | true =>
    rw [takeArrival_syncs hv hvm hva hall (hext.trans he), if_pos rfl]
    simp only [v, enterSyncing, setSlot_setSlot]
    rfl
  | false =>
    rw [takeArrival_releases hv hvm hva hall (hext.trans he), if_neg Bool.false_ne_true]
    simp only [v, setSlot_setSlot]
    rfl

/-- A slot without EXTERNAL becomes FREE (R80). -/
theorem freeSlot_internal {sl : Slot} (h : sl.external = false) (i : SlotIx) (s : State) :
    freeSlot i sl s = { s.setSlot i none with openList := s.openList.erase i } := by
  simp [freeSlot, h]

/-- A slot without EXTERNAL, released while its MARKER is the one entry of every member: the members become IDLE (R80, R81). -/
theorem releaseSlot_idle {v : State} {i : SlotIx} {sl : Slot} (hi : v.slots[i] = some sl) (he : sl.external = false)
    (hw : ∀ c, hasChan sl.members c = true → (v.chan c).state = .waiting ∧ (v.chan c).queue = [.marker i]) :
    ∃ w : State, releaseSlot i v = (w.post (slotDone w i sl .ok (lowestChan sl.members)), [])
      ∧ (∀ c, w.chan c = if hasChan sl.members c then (v.chan c).emptied .idle else v.chan c)
      ∧ w = { v.setSlot i none with openList := v.openList.erase i, chans := w.chans } := by
  have hleaving : (chansOf sl.members).filter (waitsAt v i) = chansOf sl.members :=
    List.filter_eq_self.mpr fun c hc =>
      have h := hw c ((mem_chansOf sl.members c).mp hc)
      waitsAt_iff.mpr ⟨h.1, [], h.2⟩
  obtain ⟨hsig, hchan, hframe⟩ := runTails_last (nodup_chansOf sl.members) (s := freeSlot i sl v) fun c hc => by
    rw [show ((freeSlot i sl v).chan c).queue = _ from (hw c ((mem_chansOf sl.members c).mp hc)).2]
    rfl
  have hrelease := releaseSlot_eq hi
  rw [hleaving] at hrelease
  generalize eachAct (chansOf sl.members) (fun c u => runHead c (u.chan c).queue.tail u) (freeSlot i sl v) = b at *
  obtain ⟨w, sent⟩ := b
  obtain rfl : sent = [] := hsig
  rw [freeSlot_internal he] at hframe
  refine ⟨w, hrelease, fun c => (hchan c).trans ?_, hframe⟩
  simp only [mem_chansOf]
  rfl

/-- Settles O28: without EXTERNAL the slot is released at once; with it, the slot is SYNCING. -/
theorem rendezvousOfIdleMembers : Obligations.RendezvousOfIdleMembers := by
  intro s r i ht hs hshaped hf hidle hi hlow hclosed members first
  have hopen (c : Chan) (hc : hasChan members c = true) : (s.chan c).isOpen = true := by simp [Channel.isOpen, hidle c hc]
  have hne : members ≠ 0 := (rendezvousFieldsOk_iff.mp hf).1
  obtain ⟨u, hadmit, hchan, hframe⟩ := admitRendezvous_arrivals (s := consume .main s) (r := r) (i := i) hf hopen hshaped hi hlow
  have hwaits (c : Chan) (hc : hasChan members c = true) : u.chan c = { (s.chan c).emptied .waiting with queue := [.marker i] } :=
    (hchan c).trans ((if_pos hc).trans (if_pos (hidle c hc)))
  have hother (c : Chan) (hc : hasChan members c = false) : u.chan c = s.chan c :=
    (hchan c).trans (if_neg (by rw [show hasChan (recMask r 8) c = false from hc]; exact Bool.false_ne_true))
  have hall : ((chansOf members).filter fun c => ((consume .main s).chan c).state == .idle) = chansOf members :=
    List.filter_eq_self.mpr fun c hc => by
      rw [chan_consume, hidle c ((mem_chansOf members c).mp hc)]
      rfl
  have hsome : chansOf members ≠ [] :=
    List.ne_nil_of_mem ((mem_chansOf members first).mpr (hasChan_lowestChan hne))
  have huslots : u.slots = s.slots.set i (some (openedSlot r)) := congrArg (·.slots) hframe
  have hui : u.slots[i] = some (openedSlot r) := by rw [huslots]; simp
  have hkeep (j : SlotIx) (hj : j ≠ i) : u.slots[j] = s.slots[j] := by
    rw [huslots]
    exact (s.slots_setSlot_get i j _).trans (if_neg hj)
  have hnow : u.now = s.now := congrArg (·.now) hframe
  have hround := takeArrivals_complete (nodup_chansOf members) hsome hui
    (fun c => (mem_chansOf members c).symm) rfl
  rw [hall] at hadmit
  let full : Slot := { openedSlot r with arrived := members, state := .gathering, expiry := expiryFrom (openedSlot r) s.now }
  have hfull : (openedSlot r).arriveAll (chansOf members) s.now = full := by
    have harrived : ((openedSlot r).arriveAll (chansOf members) s.now).arrived = members := mask_ext fun c => by
      rw [hasChan_arriveAll, show hasChan (openedSlot r).arrived c = false from hasChan_zero c, Bool.false_or, Bool.eq_iff_iff,
        decide_eq_true_eq, mem_chansOf]
    rw [arriveAll_opened rfl hsome, harrived]
  rw [hnow, hfull] at hround
  have hrest (t : State) (hh : t.halts = s.halts) (ho : ∀ c, hasChan members c = false → t.chan c = s.chan c) :
      t.haltsSettled := haltsSettled_of hs hh fun c hr => by
    have hout : hasChan members c = false := Bool.eq_false_iff.mpr fun hc => by
      simp [Channel.comingToRest, hidle c hc] at hr
    rwa [ho c hout]
  have hfinal (w : State) (posting : List Cpl) (stall : StallCause) (irq : Bool) (messages : Nat) (hw : w = { u with
        slots := w.slots, openList := w.openList, xsyncLow := w.xsyncLow, xsyncRun := w.xsyncRun, chans := w.chans }) :
      ({ w with posting := posting, stall := stall, irq := irq, messages := messages } : State) = { s with
        slots := w.slots, openList := w.openList, xsyncLow := w.xsyncLow, xsyncRun := w.xsyncRun, chans := w.chans
        posting := posting, mainRing := w.mainRing, ctrlRing := w.ctrlRing, stall := stall, irq := irq
        messages := messages } := by
    let g (y : State) : State := { y with
      slots := w.slots, openList := w.openList, xsyncLow := w.xsyncLow, xsyncRun := w.xsyncRun, chans := w.chans
      posting := posting, mainRing := w.mainRing, ctrlRing := w.ctrlRing, stall := stall, irq := irq, messages := messages }
    have hfirst : g w = g u := (congrArg g hw :)
    have hsecond : g u = g (consume .main s) := (congrArg g hframe :)
    exact hfirst.trans hsecond
  obtain ⟨-, hflag | hflag, -⟩ := rendezvousFieldsOk_iff.mp hf
  · have hexternal : (openedSlot r).external = false := by
      show (blockByte r 9 == 1) = false
      rw [hflag]
      rfl
    let v : State := u.setSlot i (some full)
    have hvi : v.slots[i] = some full := (u.slots_setSlot_get i i _).trans (if_pos rfl)
    obtain ⟨w, hrelease, hleft, hwframe⟩ := releaseSlot_idle (v := v) hvi hexternal fun c hc => by
      rw [show v.chan c = _ from hwaits c hc]
      exact ⟨rfl, rfl⟩
    rw [hexternal, if_neg Bool.false_ne_true, hrelease] at hround
    have hown := hadmit.trans (settle_round hround)
    have hopened : u.openList.erase i = s.openList := by
      rw [show u.openList = s.openList ++ [i] from congrArg (·.openList) hframe, List.erase_append_right _ hclosed]
      simp
    rw [setSlot_setSlot, show v.openList = u.openList from rfl, hopened] at hwframe
    have hlow' : u.xsyncLow = s.xsyncLow := by
      refine (congrArg (·.xsyncLow) hframe).trans ?_
      show (s.xsyncLow || (openedSlot r).external) = s.xsyncLow
      rw [hexternal, Bool.or_false]
    have hin (c : Chan) (hc : hasChan members c = true) : w.chan c = (s.chan c).emptied .idle := by
      rw [hleft, if_pos (show hasChan full.members c = true from hc), show v.chan c = u.chan c from rfl, hwaits c hc]
      rfl
    have hout (c : Chan) (hc : hasChan members c = false) : w.chan c = s.chan c := by
      rw [hleft, if_neg (by rw [show hasChan full.members c = false from hc]; exact Bool.false_ne_true), show v.chan c = u.chan c from rfl, hother c hc]
    have hslots : w.slots = u.slots.set i none := congrArg (·.slots) hwframe
    have hposting : w.posting = s.posting := (congrArg (·.posting) hwframe).trans (congrArg (·.posting) hframe)
    have hrecord : slotDone w i full .ok (lowestChan members)
        = (s.done .main ReqKind.rendezvous.code (recTag r) .ok .clear (chanByte first) (s.position first) (auxNat i.val)
          (auxMask members)).showing s first := by
      have hpos : w.position first = s.position first := by
        rw [State.position, hin first (hasChan_lowestChan hne)]
        rfl
      have hclock : w.clock = s.clock := (congrArg (·.clock) hwframe).trans (congrArg (·.clock) hframe)
      have hnow' : w.now = s.now := (congrArg (·.now) hwframe).trans hnow
      simp only [slotDone, State.done, Cpl.showing, first, hclock, hnow'] at hpos ⊢
      rw [hpos]
      rfl
    let z : State := w.post (slotDone w i full .ok (lowestChan members))
    refine answers_owner (u := z) ht hown ?_ fun stall irq messages => ⟨fun _ => ⟨?_, ?_, hin, ?_, ?_, ?_⟩, fun h1 => ?_, hout, fun j hj => ?_,
      ?_, ?_⟩
    · exact hrest _ ((congrArg (·.halts) hwframe).trans (congrArg (·.halts) hframe)) hout
    · show w.slots[i] = none
      rw [hslots]
      exact (u.slots_setSlot_get i i none).trans (if_pos rfl)
    · exact congrArg (·.openList) hwframe
    · show w.posting ++ [_] = _
      rw [hposting, hrecord]
    · exact (congrArg (·.xsyncLow) hwframe).trans hlow'
    · exact (congrArg (·.xsyncRun) hwframe).trans (congrArg (·.xsyncRun) hframe)
    · rw [hflag] at h1; cases h1
    · show w.slots[j] = s.slots[j]
      rw [hslots]
      exact (u.slots_setSlot_get i j none).trans ((if_neg hj).trans (hkeep j hj))
    · exact tookFrom_of_rings ((congrArg (·.mainRing) hwframe).trans (congrArg (·.mainRing) hframe))
        ((congrArg (·.ctrlRing) hwframe).trans (congrArg (·.ctrlRing) hframe))
    · exact hfinal w z.posting stall irq messages (by rw [hwframe]; rfl)
  · have hexternal : (openedSlot r).external = true := by
      show (blockByte r 9 == 1) = true
      rw [hflag]
      rfl
    rw [hexternal, if_pos rfl] at hround
    have hown := hadmit.trans (settle_round hround)
    let z : State := enterSyncing i full u
    refine answers_owner (u := z) ht hown ?_ fun stall irq messages => ⟨fun h0 => ?_,
      fun _ => ⟨⟨{ full with state := .syncing }, ?_, rfl, rfl, rfl, hexternal, rfl, expiryFrom_eq _ _⟩, congrArg (·.openList) hframe, rfl,
        ?_, hwaits, congrArg (·.posting) hframe⟩, hother, fun j hj => ?_, ?_, ?_⟩
    · exact hrest _ (congrArg (·.halts) hframe) hother
    · rw [hflag] at h0; cases h0
    · exact (u.slots_setSlot_get i i _).trans (if_pos rfl)
    · have hxsync : u.xsync = s.xsync := congrArg (·.xsync) hframe
      show (if u.xsync then some u.now else none) = _
      rw [hxsync, hnow]
    · exact (u.slots_setSlot_get i j _).trans ((if_neg hj).trans (hkeep j hj))
    · exact tookFrom_of_rings (congrArg (·.mainRing) hframe) (congrArg (·.ctrlRing) hframe)
    · exact hfinal z z.posting stall irq messages rfl

end Sys2Proof.Machine
end

section
/-! What one command does to the STEP and DIR pins of a channel, before and after the signals it sends (R32, R34, R170, O42). -/

namespace Sys2Proof.Machine

/-- A channel whose DIR has just changed: its MOVE settles until an instant, or a halt of the same instant has held it (R34). -/
def Channel.turned (ch : Channel) (settleEnd : Nat) : Prop :=
  (ch.state = .running ∧ ch.pgn.phase = .settle ∧ ch.pgn.settleEnd = some settleEnd ∧ ch.pgn.emitted = 0)
    ∨ (ch.state = .held ∧ ch.queue = [])

/-- What the motion of one instant does to a channel's pins: nothing, one rise of STEP, or one change of DIR. -/
inductive PinStep (now : Nat) (ch ch' : Channel) : Prop
  | same (hcfg : ch'.cfg = ch.cfg) (hpulse : ch'.pgn.pulseEnd = ch.pgn.pulseEnd) (hdir : ch'.pgn.dirHigh = ch.pgn.dirHigh)
  | rises (hpulse : ch'.pgn.pulseEnd = some (now + 40 * ch.cfg.pulseWidth)) (hdir : ch'.pgn.dirHigh = ch.pgn.dirHigh)
      (hst : ch'.state = .running ∨ ch'.state = .stopping ∨ ch'.state = .held)
  | turns (hpulse : ch'.pgn.pulseEnd = ch.pgn.pulseEnd) (hturn : ch'.turned (now + 40 * ch.cfg.dirSettle))

namespace PinStep

variable {now : Nat} {ch mid ch' : Channel}

protected theorem refl : PinStep now ch ch := .same rfl rfl rfl

/-- The motion of a channel whose pins and configuration are those of another. -/
theorem of_same (hcfg : mid.cfg = ch.cfg) (hpulse : mid.pgn.pulseEnd = ch.pgn.pulseEnd) (hdir : mid.pgn.dirHigh = ch.pgn.dirHigh)
    (h : PinStep now mid ch') : PinStep now ch ch' := by
  cases h with
  | same hc hp hd => exact .same (hc.trans hcfg) (hp.trans hpulse) (hd.trans hdir)
  | rises hp hd hst => exact .rises (by rw [hp, hcfg]) (hd.trans hdir) hst
  | turns hp ht => exact .turns (hp.trans hpulse) (hcfg ▸ ht)

/-- A step raises STEP for the pulse width (R32). -/
theorem emit (rateSq : Nat) (h : ch.state = .running ∨ ch.state = .stopping) : PinStep now ch (ch.afterEmit now rateSq) := by
  refine .rises ?_ ?_ ?_ <;> rw [afterEmit_frame]
  · simp [stepEdge, usCycles_eq]
  · rfl
  · exact h.elim .inl (.inr ∘ .inl)

/-- A first step is emitted, or waits for the end of the hold with the pins as they were (R35, R45). -/
theorem first (entrySq : Nat) (h : ch.state = .running) : PinStep now ch (ch.afterFirst now entrySq) := by
  have hz := boundaryZero_frame ch entrySq
  unfold Channel.afterFirst
  simp only
  split
  · refine .same ?_ ?_ ?_ <;> simp only [] <;> rw [hz]
  · refine .of_same ?_ ?_ ?_ (emit entrySq (.inl ?_)) <;> rw [hz]
    exact h

/-- A MOVE that starts leaves DIR as it stands and takes its first step, or changes DIR and settles (R14, R34). -/
theorem start (m : MoveEntry) (r : Resolved) (behind : List Entry) : PinStep now ch (ch.afterStart now m r behind) := by
  unfold Channel.afterStart
  split
  · exact .same rfl rfl rfl
  · split
    · rename_i hdir
      exact .of_same (mid := ch.begun m r behind) rfl rfl hdir.symm (first _ rfl)
    · exact .turns rfl (.inl ⟨rfl, rfl, by rw [usCycles_eq], rfl⟩)

/-- The entries of a channel at rest run to the first that takes time (R9). -/
theorem run (l : List Entry) : PinStep now ch (ch.afterRun now l) := by
  induction l generalizing ch with
  | nil => exact .same rfl rfl rfl
  | cons e rest ih =>
    cases e with
    | move m =>
      unfold Channel.afterRun
      simp only
      split
      · exact ih
      · exact start _ _ _
    | dwell tag d => exact .same rfl rfl rfl
    | setPosition tag v => exact .of_same (mid := { ch with pgn := { ch.pgn with position := v } }) rfl rfl rfl ih
    | mark tag x y => exact ih
    | marker i => exact .same rfl rfl rfl

theorem entry (e : Entry) : PinStep now ch (ch.afterEntry now e) := by
  unfold Channel.afterEntry
  split
  · exact run _
  · exact .same rfl rfl rfl

end PinStep

/-- A halt order ends the settling of a MOVE that has emitted no step (R26, R53). -/
theorem turned_afterOrder {ch : Channel} {e : Nat} (h : ch.turned e) (mode : StopMode) (byWatch : Bool) :
    (ch.afterOrder mode byWatch).turned e := by
  obtain ⟨-, he⟩ | ⟨hs, hq⟩ | ⟨hst, -⟩ | ⟨hr, w, he⟩ := afterOrder_cases ch mode byWatch
  · rwa [he]
  · exact .inr ⟨hs, hq⟩
  · rcases h with ⟨h, -⟩ | ⟨h, -⟩ <;> rw [hst] at h <;> cases h
  · obtain ⟨-, hphase, hend, hnone⟩ | ⟨h, -⟩ := h
    · rw [he]
      cases hm : ({ ch with watchHalt := w } : Channel).headMove? with
      | none =>
        have hself : ({ ch with watchHalt := w } : Channel).afterStopping = { ch with watchHalt := w } := by
          unfold Channel.afterStopping
          rw [hm]
        rw [hself]
        exact .inl ⟨hr, hphase, hend, hnone⟩
      | some m =>
        rw [afterStopping_eq hm, if_pos hnone]
        exact .inr ⟨rfl, rfl⟩
    · rw [hr] at h; cases h

/-- A channel in motion or held is so after a halt order (R53). -/
theorem inMotion_afterOrder {ch : Channel} (h : ch.state = .running ∨ ch.state = .stopping ∨ ch.state = .held) (mode : StopMode)
    (byWatch : Bool) : (ch.afterOrder mode byWatch).state = .running ∨ (ch.afterOrder mode byWatch).state = .stopping
      ∨ (ch.afterOrder mode byWatch).state = .held := by
  obtain ⟨-, he⟩ | ⟨hs, -⟩ | ⟨-, hs, -⟩ | ⟨hr, w, he⟩ := afterOrder_cases ch mode byWatch
  · rwa [he]
  · exact .inr (.inr hs)
  · exact .inr (.inl hs)
  · rw [he]
    obtain ⟨⟨he', -⟩ | ⟨hs, -⟩ | ⟨hs, -⟩, -⟩ := afterStopping_spec { ch with watchHalt := w }
    · rw [he']; exact .inl hr
    · exact .inr (.inr hs)
    · exact .inr (.inl hs)

namespace PinStep

variable {now : Nat} {ch mid ch' : Channel}

theorem order (h : PinStep now ch mid) (mode : StopMode) (byWatch : Bool) : PinStep now ch (mid.afterOrder mode byWatch) := by
  obtain ⟨hp, hd, -⟩ := afterOrder_keeps mid mode byWatch
  cases h with
  | same hcfg hpulse hdir => exact .same ((cfg_afterOrder mid mode byWatch).trans hcfg) (hp.trans hpulse) (hd.trans hdir)
  | rises hpulse hdir hst => exact .rises (hp.trans hpulse) (hd.trans hdir) (inMotion_afterOrder hst mode byWatch)
  | turns hpulse hturn => exact .turns (hp.trans hpulse) (turned_afterOrder hturn mode byWatch)

/-- A channel that waits has moved no pin at this instant. -/
theorem leave (h : PinStep now ch mid) (hw : mid.state = .waiting) (l : List Entry) : PinStep now ch (mid.afterRun now l) := by
  cases h with
  | same hcfg hpulse hdir => exact .of_same hcfg hpulse hdir (run l)
  | rises _ _ hst => rcases hst with h | h | h <;> rw [hw] at h <;> cases h
  | turns _ hturn => rcases hturn with ⟨h, -⟩ | ⟨h, -⟩ <;> rw [hw] at h <;> cases h

/-- The signals of the same instant (R91). -/
theorem moves (h : PinStep now ch mid) (k : Moves now mid ch') : PinStep now ch ch' := by
  induction k with
  | refl => exact h
  | tail _ hstep ih =>
    cases hstep with
    | order mode byWatch => exact ih.order mode byWatch
    | leave hw => exact ih.leave hw _

end PinStep

end Sys2Proof.Machine
end

section
/-! What every command does to the STEP and DIR pins (R170, O42). -/

namespace Sys2Proof.Machine

/-- What a step shows at the pins of a channel: a rise of STEP lasts the pulse width, a fall waits for its end, and DIR changes as a
MOVE settles, but for a reset (R32, R34, R168, R170). -/
def PinsShown (now : Nat) (ch ch' : Channel) : Prop :=
  (ch.pgn.pulseEnd.isSome = false → ch'.pgn.pulseEnd.isSome = true →
    ch'.pgn.pulseEnd = some (now + 40 * ch.cfg.pulseWidth) ∧ ch'.state ∈ [ChanState.running, .stopping, .held]
      ∧ ch'.pgn.dirHigh = ch.pgn.dirHigh)
  ∧ (∀ e, ch.pgn.pulseEnd = some e → ch'.pgn.pulseEnd.isSome = false → e ≤ now ∨ ch'.pgn = Pgn.reset)
  ∧ (ch'.pgn.dirHigh ≠ ch.pgn.dirHigh → ch'.pgn = Pgn.reset
      ∨ (ch'.state = .running ∧ ch'.pgn.phase = .settle ∧ ch'.pgn.settleEnd = some (now + 40 * ch.cfg.dirSettle))
      ∨ (ch'.state = .held ∧ ch'.queue = []))

namespace PinsShown

variable {now : Nat} {ch ch' : Channel}

theorem of_pins (hpulse : ch'.pgn.pulseEnd = ch.pgn.pulseEnd) (hdir : ch'.pgn.dirHigh = ch.pgn.dirHigh) : PinsShown now ch ch' := by
  refine ⟨fun hlow hhigh => ?_, fun e he hlow => ?_, fun hne => absurd hdir hne⟩
  · rw [hpulse, hlow] at hhigh; cases hhigh
  · rw [hpulse, he] at hlow; cases hlow

protected theorem refl : PinsShown now ch ch := of_pins rfl rfl

theorem of_step (h : PinStep now ch ch') : PinsShown now ch ch' := by
  cases h with
  | same _ hpulse hdir => exact of_pins hpulse hdir
  | rises hpulse hdir hst =>
    refine ⟨fun _ _ => ⟨hpulse, ?_, hdir⟩, fun e _ hlow => ?_, fun hne => absurd hdir hne⟩
    · rcases hst with h | h | h <;> simp [h]
    · rw [hpulse] at hlow; cases hlow
  | turns hpulse hturn =>
    refine ⟨fun hlow hhigh => ?_, fun e he hlow => ?_, fun _ => .inr ?_⟩
    · rw [hpulse, hlow] at hhigh; cases hhigh
    · rw [hpulse, he] at hlow; cases hlow
    · exact hturn.imp_left fun ⟨hst, hphase, hend, _⟩ => ⟨hst, hphase, hend⟩

theorem of_fall {e : Nat} (he : ch.pgn.pulseEnd = some e) (hle : e ≤ now)
    (hdir : ch'.pgn.dirHigh = ch.pgn.dirHigh) : PinsShown now ch ch' := by
  refine ⟨fun hlow _ => ?_, fun e' he' _ => .inl ?_, fun hne => absurd hdir hne⟩
  · rw [he] at hlow; cases hlow
  · rw [he] at he'; cases he'; exact hle

theorem of_reset (h : ch'.pgn = Pgn.reset) : PinsShown now ch ch' := by
  refine ⟨fun _ hhigh => ?_, fun _ _ _ => .inr h, fun _ => .inl h⟩
  rw [h] at hhigh
  cases hhigh

end PinsShown

/-! ### The channels of a command together -/

/-- The motion of one instant, channel by channel. -/
structure PinSteps (s t : State) : Prop where
  now : t.now = s.now
  steps : ∀ c, PinStep s.now (s.chan c) (t.chan c)

namespace PinSteps

variable {s t u : State} {c : Chan} {x : Channel}

protected theorem refl (s : State) : PinSteps s s := ⟨rfl, fun _ => .refl⟩

theorem of_runsOn (h : RunsOn c s t x) (hx : PinStep s.now (s.chan c) x) : PinSteps s t where
  now := h.now
  steps d := by
    by_cases hd : d = c
    · subst hd; rw [h.chan]; exact hx
    · rw [h.others d hd]; exact .refl

/-- The signals that follow. -/
theorem settled (h : PinSteps s t) (k : SettleStep t u) : PinSteps s u where
  now := k.now.trans h.now
  steps d := (h.steps d).moves (h.now ▸ k.moves d)

theorem of_settled (k : SettleStep s u) : PinSteps s u := (PinSteps.refl s).settled k

/-- The motion from a state whose channels and instant are those of another. -/
theorem from_same (h : PinSteps t u) (hc : t.chans = s.chans) (hn : t.now = s.now) : PinSteps s u where
  now := h.now.trans hn
  steps d := by
    have := h.steps d
    rwa [hn, show t.chan d = s.chan d by rw [State.chan, State.chan, hc]] at this

/-- A change of none of the channels. -/
theorem to_same (h : PinSteps s t) (hc : u.chans = t.chans) (hn : u.now = t.now) : PinSteps s u where
  now := hn.trans h.now
  steps d := by
    rw [show u.chan d = t.chan d by rw [State.chan, State.chan, hc]]
    exact h.steps d

theorem post (h : PinSteps s t) (r : Cpl) : PinSteps s (t.post r) := h.to_same rfl rfl

theorem postNotice (h : PinSteps s t) (r : Cpl) : PinSteps s (t.postNotice r) := by
  rw [postNotice_eq]
  exact h.to_same rfl rfl

end PinSteps

theorem cfg_afterHeld (ch : Channel) (byLimit : Bool) : (ch.afterHeld byLimit).cfg = ch.cfg := by
  unfold Channel.afterHeld
  split <;> rfl

/-- The stop at a limit, like any hold, leaves the pins as they are (R56, R68). -/
theorem takeLimitChange_pins (c : Chan) (input : LimitInput) (active : Bool) (s : State) :
    PinSteps s (takeLimitChange c input active s) := by
  let x : Channel := (s.chan c).setLimit input ((s.chan c).limit input).change
  have hframe : x = { s.chan c with limp := x.limp, limn := x.limn } := setLimit_frame _ _ _
  have hset : PinSteps s (s.setChan c x) :=
    .of_runsOn (.setChan c s x) (.same (congrArg (·.cfg) hframe) (congrArg (·.pgn.pulseEnd) hframe) (congrArg (·.pgn.dirHigh) hframe))
  have hheld (v : State) (hv : PinSteps s v) (hx : v.chan c = x) : PinSteps s (enterHeld c true v).1 := by
    have hon := enterHeld_on c true v
    refine ⟨by rw [hon.frame]; exact hv.now, fun d => ?_⟩
    by_cases hd : d = c
    · subst hd
      obtain ⟨-, -, hpulse, hdir, -⟩ := afterHeld_spec x true
      rw [hon.chan, hx]
      refine .same ((cfg_afterHeld x true).trans (congrArg (·.cfg) hframe)) (hpulse.trans (congrArg (·.pgn.pulseEnd) hframe))
        (hdir.trans (congrArg (·.pgn.dirHigh) hframe))
    · rw [hon.others d hd]
      exact hv.steps d
  unfold takeLimitChange
  simp only
  split
  · split
    · exact (hheld _ (hset.postNotice _) ((State.chan_postNotice _ _ c).trans (s.chan_setChan_self c x))).settled (.settle _)
    · exact hset
  · exact hset

/-- The end of a segment: the successor of a bound head takes its first step, or the entries behind an unbound one run (R15, R24). -/
theorem endSegment_pins (c : Chan) (m : MoveEntry) {s : State} (hst : (s.chan c).state = .running) :
    PinSteps s (endSegment c m s).1 := by
  have hpost : RunsOn c s (postSegment c m s) (s.chan c) := ⟨rfl, fun _ _ => rfl, rfl⟩
  unfold endSegment
  simp only
  split
  · rename_i place successor next behind _ _
    have hmarks := hpost.trans (runMarks_runsOn c ((s.chan c).queue.tail.take (place - 1)) _)
    rw [hpost.chan] at hmarks
    have h := hmarks.trans (takeUpSuccessor_runsOn c next successor behind _)
    rw [hmarks.chan, hmarks.now] at h
    exact .of_runsOn h (.of_same (mid := (s.chan c).takenUp next successor behind) rfl rfl rfl (.first _ hst))
  · have hrest := RunsOn.setChan c (postSegment c m s) { s.chan c with pgn := (s.chan c).pgn.atRest }
    have h := (hpost.trans hrest).trans (runHead_runsOn c (s.chan c).queue.tail _)
    rw [hrest.chan] at h
    exact .of_runsOn h (.of_same (mid := { s.chan c with pgn := (s.chan c).pgn.atRest }) rfl rfl rfl (.run _))

theorem segment_pins (c : Chan) (m : MoveEntry) {s : State} (hst : (s.chan c).state = .running) :
    PinSteps s (endSegment c m (limitsAtRest c s)).settle := by
  unfold limitsAtRest
  split
  · exact (endSegment_pins c m hst).settled (.settle _)
  · have hframe := takeLimits_frame (s.chan c) s.now
    have hself : (s.setChan c ((s.chan c).takeLimits s.now)).chan c = _ := s.chan_setChan_self c _
    have h := endSegment_pins c m (s := s.setChan c ((s.chan c).takeLimits s.now)) (by rw [hself, hframe]; exact hst)
    refine PinSteps.settled ⟨h.now, fun d => ?_⟩ (.settle _)
    have hd := h.steps d
    by_cases he : d = c
    · subst he
      rw [hself] at hd
      exact hd.of_same (congrArg (·.cfg) hframe) (congrArg (·.pgn.pulseEnd) hframe) (congrArg (·.pgn.dirHigh) hframe)
    · rwa [s.chan_setChan_of_ne he] at hd

/-- STEP falls at the end of its pulse (R32). -/
theorem takePulseEnd_pins {c : Chan} {s : State} {e : Nat} (he : (s.chan c).pgn.pulseEnd = some e) (hle : e ≤ s.now) (d : Chan) :
    PinsShown s.now (s.chan d) ((takePulseEnd c s).chan d) := by
  have hdir : ((s.chan c).pgn.fall s.now).dirHigh = (s.chan c).pgn.dirHigh := by
    unfold Pgn.fall
    simp only
    split <;> rfl
  have hchan : (takePulseEnd c s).chan d
      = (s.setChan c { s.chan c with kept := none, pgn := (s.chan c).pgn.fall s.now }).chan d := by
    unfold takePulseEnd
    simp only
    split <;> rfl
  rw [hchan]
  by_cases hd : d = c
  · subst hd
    rw [State.chan_setChan_self]
    exact .of_fall he hle hdir
  · rw [s.chan_setChan_of_ne hd]
    exact .refl

/-- An assertion of ESTOP, by the state of the part (R163 to R165). -/
theorem takeAssertion_pins (s : State) : PinSteps s (takeAssertion s) := by
  have hassert : PinSteps s (assertEstop s) := by
    obtain ⟨hall, -⟩ := SettleStep.stopAll (enabledMask s) .abrupt .aborted { s with estopLatch := true }
    have hstop : PinSteps s ((haltMask (enabledMask s) .abrupt false { s with estopLatch := true }).andThen
        (failAllSlots .aborted)).settle := (PinSteps.of_settled hall).from_same rfl rfl
    have haux : PinSteps s { ((haltMask (enabledMask s) .abrupt false { s with estopLatch := true }).andThen
        (failAllSlots .aborted)).settle with aux := safePatternOf s } := hstop.to_same rfl rfl
    exact haux.postNotice _
  unfold takeAssertion
  split
  case h_3 => exact .of_settled ((SettleStep.haltMask _ _ _ _).trans (.settle _))
  case h_4 | h_5 => exact .refl s
  all_goals
    split
    · exact .refl s
    · exact hassert

theorem enterRunning_pins (b : Block) (s : State) : PinSteps s (enterRunning b s) := by
  unfold enterRunning
  simp only
  split
  · exact (takeAssertion_pins (loadSetup b s)).from_same rfl rfl
  · exact (PinSteps.refl s).to_same rfl rfl

theorem enterFailed_pins (s : State) : PinSteps s (enterFailed s) :=
  (PinSteps.of_settled (SettleStep.stopAll (failedMask s) .decel .cancelled
    (stopIntake { s with part := .failed, faultCode := .completionWrite })).1).from_same rfl rfl

theorem enterDraining_pins (s : State) : PinSteps s (enterDraining s) :=
  (PinSteps.of_settled (SettleStep.stopAll (drainMask s) .decel .cancelled (stopIntake { s with part := .draining })).1).from_same
    rfl rfl

theorem takeDwellExpiry_pins {s : State} {c : Chan} {tag : Word} {duration : Nat} {rest : List Entry}
    (hq : (s.chan c).queue = .dwell tag duration :: rest) : PinSteps s (takeDwellExpiry c s) := by
  simp only [takeDwellExpiry, hq]
  have hset (x : Cpl) := (RunsOn.setChan c s { s.chan c with dwellStart := none }).post x
  have hr (x : Cpl) := (hset x).trans (runHead_runsOn c rest _)
  refine PinSteps.settled (.of_runsOn (hr _) ?_) (.settle _)
  rw [(hset _).chan, (hset _).now]
  exact .of_same (mid := { s.chan c with dwellStart := none }) rfl rfl rfl (.run _)

theorem admitResume_pins (r : Block) (s : State) : PinSteps s (admitResume r s) := by
  unfold admitResume
  split
  · exact (PinSteps.refl s).post _
  · obtain ⟨hchan, hframe⟩ := resumed_spec (nodup_chansOf (recMask r 8)) s
    refine PinSteps.post ⟨by rw [hframe], fun c => ?_⟩ _
    rw [hchan]
    split
    · unfold Channel.afterResume
      split <;> exact .same rfl rfl rfl
    · exact .refl

/-- The MARKERs of a RENDEZVOUS, and the arrivals that they lead to (R77). -/
theorem opens_pins (m : Mask) (i : SlotIx) (s : State) :
    PinSteps s (eachAct (chansOf m) (fun c => appendEntry c (.marker i)) s).settle := by
  obtain ⟨hchan, hframe⟩ := eachAct_runsOn (after := fun now _ ch => ch.afterEntry now (.marker i))
    (appendEntry_runsOn (.marker i)) (nodup_chansOf m) s
  refine PinSteps.settled ⟨by rw [hframe], fun c => ?_⟩ (.settle _)
  rw [hchan]
  split
  · exact .entry _
  · exact .refl

/-- A SET_CHANNEL writes no pin (R63). -/
theorem configure_pins (c : Chan) (cfg : ChanConfig) (x : Cpl) (s : State) (d : Chan) :
    PinsShown s.now (s.chan d) (((s.setChan c (configure (s.chan c) cfg s.estopLatch)).post x).chan d) := by
  show PinsShown s.now (s.chan d) ((s.setChan c (configure (s.chan c) cfg s.estopLatch)).chan d)
  by_cases hd : d = c
  · subst hd
    rw [State.chan_setChan_self]
    exact .of_pins rfl rfl
  · rw [s.chan_setChan_of_ne hd]
    exact .refl

/-- The end of SETTLE: the first step follows (R14). -/
theorem settleEnd_pins (c : Chan) (entrySq : Nat) {s : State} (hst : (s.chan c).state = .running) :
    PinSteps s (firstStep c entrySq (s.modChan c fun ch => { ch with pgn := { ch.pgn with settleEnd := none } })).settle := by
  have hset := RunsOn.setChan c s { s.chan c with pgn := { (s.chan c).pgn with settleEnd := none } }
  have h := hset.trans (firstStep_runsOn c entrySq _)
  rw [hset.chan, hset.now] at h
  exact .settled (.of_runsOn h (.of_same (mid := { s.chan c with pgn := { (s.chan c).pgn with settleEnd := none } }) rfl rfl rfl
    (.first entrySq hst))) (.settle _)

/-- Every change of a command shows at the pins what a step may show. -/
theorem effect_pins (i : Instr) (s : State) (c : Chan) : PinsShown s.now (s.chan c) ((effect i s).chan c) := by
  have same {t u : State} (h : t.chans = s.chans ∧ t.now = s.now) (hc : u.chans = t.chans) (c : Chan) :
      PinsShown s.now (s.chan c) (u.chan c) := by
    rw [show u.chan c = s.chan c by rw [State.chan, State.chan, hc, h.1]]
    exact .refl
  have at_instant {t u : State} (h : t.chans = s.chans ∧ t.now = s.now) (k : ∀ c, PinsShown t.now (t.chan c) (u.chan c)) (c : Chan) :
      PinsShown s.now (s.chan c) (u.chan c) := by
    have hc := k c
    rwa [h.2, show t.chan c = s.chan c by rw [State.chan, State.chan, h.1]] at hc
  have steps {t u : State} (h : t.chans = s.chans ∧ t.now = s.now) (k : PinSteps t u) (c : Chan) :
      PinsShown s.now (s.chan c) (u.chan c) := .of_step ((k.from_same h.1 h.2).steps c)
  have reset {u : State} (h : AtReset u) (c : Chan) : PinsShown s.now (s.chan c) (u.chan c) := by
    obtain ⟨limp, limn, hc⟩ := h.chan c
    exact .of_reset (by rw [hc]; rfl)
  have all : EffectsMeet (fun t => t.chans = s.chans ∧ t.now = s.now) (fun t => ∀ c, PinsShown s.now (s.chan c) (t.chan c)) := {
    stays t h := same h rfl
    consumes t ring r h _ := by cases ring <;> exact h
    completes t x h _ _ := same h rfl
    admits t c e h _ _ := steps h (.settled (.of_runsOn (appendEntry_runsOn e c t) (.entry e)) (.settle _))
    opens t r i h _ _ _ _ _ := steps h ((opens_pins (recMask r 8) i (openSlot i (openedSlot r) t)).from_same rfl rfl)
    defines t i p x h _ _ _ := same h rfl
    halts t r mode h _ hm := by
      simp only [admitHalt, hm]
      exact steps h (.to_same (.of_settled ((SettleStep.haltMask (recMask r 8) mode false t).trans (.settle _))) rfl rfl)
    resumes t r h _ _ := steps h (admitResume_pins r t)
    overrides t c m vc x h _ _ _ _ := steps h (.post (.of_runsOn (.setChan c t (overrideHead (t.chan c) m vc)) (.same rfl rfl rfl)) x)
    cancels t i x h _ _ := steps h (.post (.of_settled ((SettleStep.failSlot i _ _ t).trans (.settle _))) x)
    watches t i w x h _ _ := same h rfl
    configures t c cfg x h _ _ _ _ := at_instant h (configure_pins c cfg x t)
    clears t x h _ _ := same h rfl
    registers t u h hu := same h (by rw [hu])
    enables t b h := h
    starts t h _ := same h (by unfold enterStarting; simp only; split <;> rfl)
    abandons t h _ := same h rfl
    drains t h _ := steps h (enterDraining_pins t)
    softResets t _ := reset (AtReset.softResetPart t)
    resets t _ := reset (AtReset.resetPart t)
    pinResets t _ := reset (AtReset.changeReset t)
    estopFollows t h := h
    asserts t h := steps h (takeAssertion_pins t)
    limitChanges t c input active h := steps h (takeLimitChange_pins c input active t)
    edges t input rise h := steps h ((PinSteps.of_settled
      ((SettleStep.takeEdge input rise (changeCapture input t)).trans (.settle _))).from_same rfl rfl)
    releases t i h := steps h (.of_settled ((SettleStep.releaseSlot i t).trans (.settle _)))
    steps t c rateSq h hst := steps h (.settled (.of_runsOn (emitStep_runsOn c rateSq t) (.emit rateSq hst)) (.settle _))
    settles t c entrySq h hst := steps h (settleEnd_pins c entrySq hst)
    falls t c e h he hle := at_instant h (takePulseEnd_pins he hle)
    segments t c m h hst _ := steps h (segment_pins c m hst)
    rests t c h _ := steps h (.of_runsOn (.of_onChannel (stopAtRest_on c t)) (.same rfl rfl rfl))
    dwells t c tag duration rest h _ hq := steps h (takeDwellExpiry_pins hq)
    expires t i h := steps h (.of_settled ((SettleStep.failSlot i _ _ t).trans (.settle _)))
    fetchFails t ring r x h _ _ := by
      have hset : PinSteps t (t.setRing ring r) := (PinSteps.refl t).to_same (by cases ring <;> rfl) (by cases ring <;> rfl)
      exact steps h (hset.postNotice x)
    written t r rest h _ := same h (by rw [recordWritten_frame])
    fails t h _ := steps h ((enterFailed_pins _).from_same rfl rfl)
    setupEnds t code h _ := same h rfl
    serves t b h _ := steps h (enterRunning_pins b t)
    leaves t h _ := same h rfl
    announces t h _ := same h rfl }
  exact all.effect i ⟨rfl, rfl⟩ c

end Sys2Proof.Machine
end

section
/-! The output pins: what each part state allows, what a reset leaves, and what a step may change (R170 to R177, O42). -/

namespace Sys2Proof.Machine

/-- Every output at its reset level (R168, R170). -/
def State.low (t : State) : Prop :=
  (∀ c, t.stepPin c = false ∧ t.dirPin c = false) ∧ t.auxPins = 0 ∧ t.xsyncPinLow = false

theorem AtReset.low {t : State} (h : AtReset t) : t.low := by
  have hslots := h.slots
  simp only [State.slotFields, Prod.mk.injEq] at hslots
  refine ⟨fun c => ?_, h.aux, hslots.2.2⟩
  obtain ⟨limp, limn, hc⟩ := h.chan c
  rw [State.stepPin, State.dirPin, hc]
  exact ⟨rfl, rfl⟩

/-- A reset at the end of its command leaves every output low. -/
theorem answers_low {s : State} (h : s.inReset = false) {f : State → State} (hf : AtReset (f s)) : Answers (outcome s f) State.low :=
  ⟨_, outcome_awake h f, (atReset_finish hf).low⟩

/-- A cycle touches no output. -/
theorem low_tickWith {p : Inputs} {s : State} (h : s.low) : (tickWith p s).low := by
  obtain ⟨-, hslots, haux⟩ := commanded_tickWith p s
  simp only [State.slotFields, Prod.mk.injEq] at hslots
  obtain ⟨hpins, hlatch, hsync⟩ := h
  refine ⟨fun c => ?_, haux.trans hlatch, hslots.2.2.trans hsync⟩
  rw [State.stepPin, State.dirPin, chan_tickWith]
  exact hpins c

/-- While the pin holds the part in reset every step leaves the outputs low (R171). -/
theorem step_low {s t : State} (hr : s.inReset = true) (h : s.low) (hst : step s = .next t) : t.low := by
  refine step_meets (pre := fun s => s.inReset = true ∧ s.low) (post := State.low) (fun _ _ _ h => h) (fun _ h => h.2)
    (fun _ _ h => low_tickWith h.2) (fun _ u ha h => ?_) (fun u _ => (atReset_finish (AtReset.changeReset u)).low) ⟨hr, h⟩ hst
  rw [ha] at h
  cases h.1

/-- What one step shows at the pins of every channel (R170). -/
theorem step_pins {s t : State} (hst : step s = .next t) (c : Chan) : PinsShown s.now (s.chan c) (t.chan c) := by
  have start {u : State} (h : u.chans = s.chans ∧ u.now = s.now) (c : Chan) : u.chan c = s.chan c := by
    rw [State.chan, State.chan, h.1]
  refine step_meets (pre := fun t => t.chans = s.chans ∧ t.now = s.now) (post := fun t => ∀ c, PinsShown s.now (s.chan c) (t.chan c))
    (fun _ _ _ h => h) (fun u h c => ?_) (fun p u h c => ?_) (fun i u _ h c => ?_) (fun u _ c => ?_) ⟨rfl, rfl⟩ hst c
  · rw [start h]
    exact .refl
  · rw [chan_tickWith, start h]
    exact .of_pins rfl rfl
  · have hc := effect_pins i u c
    rw [h.2, start h] at hc
    rw [finish_eq]
    exact hc
  · obtain ⟨limp, limn, hc⟩ := (atReset_finish (AtReset.changeReset u)).chan c
    exact .of_reset (by rw [hc]; rfl)

/-- Settles O42: the pins show their blocks' levels, as the part state allows; a reset takes them low, and a step raises STEP for the
pulse width alone and changes DIR as a MOVE settles alone. -/
theorem outputPinsShowTheirLevels : Obligations.OutputPinsShowTheirLevels := by
  refine ⟨fun s => ⟨fun c => ⟨rfl, rfl⟩, rfl, rfl, rfl⟩, fun s ho hslots => ?_, fun s => ?_, fun s t c hst => ?_⟩
  · obtain ⟨hoff, hcalm, hout, -⟩ := ho
    obtain ⟨-, -, hsound, -, hlow⟩ := hslots
    refine ⟨fun hp c => ?_, fun hp c _ hst => ?_, fun hp => (hout hp).2, hlow.trans ?_⟩
    · rw [State.stepPin, (hoff hp c).2]
      rfl
    · have hc := hcalm hp c
      simp only [List.mem_cons, List.not_mem_nil, or_false] at hc hst
      rcases hst with h | h | h <;> simp [h] at hc
    · refine exists_congr fun i => exists_congr fun sl => and_congr_right fun hi => and_congr_right fun _ => ?_
      obtain ⟨-, -, hsync, -⟩ := hsound i sl hi
      rw [Ne, ← hsync]
      cases sl.state <;> simp
  · intro low
    refine ⟨fun h => ⟨answers_low h (AtReset.resetPart s), answers_low h (AtReset.resetPart s), fun v hv => ?_, fun hdone => ?_⟩,
      fun hr h t hst => step_low hr h hst⟩
    · have hw : writeWindow 0 15 v s = softResetPart s := if_pos hv
      exact answers_low (f := writeWindow 0 15 v) h (hw ▸ AtReset.softResetPart s)
    · have hreset : (if s.rstCompletes then changeReset s else s) = changeReset s := if_pos hdone
      exact answers_low (f := fun s => if s.rstCompletes then changeReset s else s) h (by
        rw [hreset]
        exact AtReset.changeReset s)
  · exact step_pins hst c

end Sys2Proof.Machine
end
